-- ==== Sys2Proof/Word.lean ====
section
/-! DEFINITION. The widths of the block's values (spec/00_scope.md R18). -/

namespace Sys2Proof

/-- `u8`: snapshot elements, keycodes, device registers, data bytes (R18). -/
abbrev Byte := BitVec 8

/-- `u16`: the data of the word driver operations (R87, R108). -/
abbrev Half := BitVec 16

/-- `u32`: command words (R100) and the wake counter (R44). -/
abbrev Word := BitVec 32

/-- A 7-bit bus device address (R81). -/
abbrev BusAddr := BitVec 7

/-- A Matrix Snapshot: one byte per column, element `c` first to last, bit `r` for row `r` (R18, R85). -/
abbrev Snapshot := List Byte

end Sys2Proof
end

