-- ==== Sys2Proof/Config.lean ====
section
/-! DEFINITION. The implementation parameters of spec/00_scope.md section 3 (R9 to R17) as one plain
record, and the free values, which nothing in Lean can evaluate. -/

namespace Sys2Proof

/-- The two expander chips, in chip order (R9). -/
inductive Chip where
  | chip0
  | chip1
  deriving DecidableEq, Repr

/-- The debounce policies of R16 and R180. -/
inductive Policy where
  | settleConfirm
  | nofn
  deriving DecidableEq, Repr

/-- The agreement depth `K` of N-of-N: 2 or 3 (R16). -/
inductive Depth where
  | two
  | three
  deriving DecidableEq, Repr

/-- A function-key action (R12): `LayerSwitch`, or another action named by an 8-bit identifier. -/
inductive Action where
  | layerSwitch
  | other (id : Byte)
  deriving DecidableEq, Repr

/-- One entry of the function-key table (R12). The sentinel row of -1 only marks the table's end, so an
entry's row and column are naturals. -/
structure FkEntry where
  row : Nat
  col : Nat
  action : Action
  deriving DecidableEq, Repr

/-- The parameters of R9 to R17. They are build-time constants: no command writes them (R50). A model
takes them as an argument; here they travel in `State.cfg`, which no step changes. -/
structure Params where
  /-- `COLS_PER_CHIP[0]`, in 0..8 (R10). -/
  cols0 : Fin 9
  /-- `COLS_PER_CHIP[1]`, in 0..8 (R10). -/
  cols1 : Fin 9
  /-- `ROWS`, in 1..8 (R10; the bounds are `Params.valid`). -/
  rows : Nat
  /-- `LAYERS`, at least 1 (R11). -/
  layers : Nat
  /-- `KEYMAP[layer][row][col]`; a position the lists do not hold is 0, "no mapping" (R12). -/
  keymap : List (List (List Byte))
  /-- `FKT`, in scan order, ended where the sentinel stands (R12). -/
  fkt : List FkEntry
  /-- `MOD_BIT` as a list of (keycode, bit index), first entry wins (R13). -/
  modMap : List (Byte × Fin 8)
  /-- `CHIP_ADDR[0]` (R14). -/
  addr0 : BusAddr
  /-- `CHIP_ADDR[1]` (R14). -/
  addr1 : BusAddr
  /-- `REG_COL_OUT` (R14). -/
  regColOut : Byte
  /-- `REG_ROW_IN` (R14). -/
  regRowIn : Byte
  /-- `CFG_SEQ`, the (register, value) writes that configure one chip (R14, R159). -/
  cfgSeq : List (Byte × Byte)
  /-- `REPORT_ID`, byte 0 of the report (R15). -/
  reportId : Byte
  /-- `DEBOUNCE_POLICY` (R16). -/
  policy : Policy
  /-- `K` (R16). -/
  depth : Depth
  /-- `REQUEUE_PASSES`, at least 1 (R16). -/
  requeuePasses : Nat
  /-- `POLL_RELOAD`, what the interrupt loads into `WAKE` (R17). -/
  pollReload : Word
  /-- `T_SETTLE_US`, a label no rule reads (R17). -/
  tSettleUs : Nat
  /-- `T_DEBOUNCE_MS`, a label no rule reads (R17). -/
  tDebounceMs : Nat
  deriving DecidableEq, Repr

namespace Config

/-! Free values: each is an opaque constant applied to the count of free values drawn so far
(`Env.freeCount`), so that a claim about one holds whatever it is. -/

/-- The bus status of a call whose answer the environment's lists do not hold (R84: "any `u8`"). Log 3. -/
opaque freeBusStatus : Nat → Byte

/-- The first byte of such a read (R84). Log 3. -/
opaque freeReadLow : Nat → Byte

/-- The second byte of such a read (R84). Log 3. -/
opaque freeReadHigh : Nat → Byte

/-- The accept flag of a send whose answer the lists do not hold (R245, R267). Log 3. -/
opaque freeAccepted : Nat → Bool

/-- `SCAN_CHIP` after a scan: between commands it holds "no meaningful value" (R46). Log 6. -/
opaque freeScanChip : Nat → Bool

/-- `SCAN_COL` after a scan, in 0..8 (R46). Log 6. -/
opaque freeScanCol : Nat → Fin 9

end Config

end Sys2Proof
end

