-- ==== Sys2Proof/Machine/Defaults.lean ====
section
/-! DEFINITION. The parameter values that State.reset carries. The spec leaves most of them open
(spec/92_eei_decisions.md D11 to D13, D29, D32); log 2 names where each value comes from. No statement
rests on them. -/

namespace Sys2Proof

namespace Config

/-- The default `MOD_BIT` of R13: keycode `0xE0 + i` maps to bit `i`. -/
def defaultModMap : List (Byte × Fin 8) :=
  [(0xE0#8, 0), (0xE1#8, 1), (0xE2#8, 2), (0xE3#8, 3), (0xE4#8, 4), (0xE5#8, 5), (0xE6#8, 6), (0xE7#8, 7)]

/-- The keymap of the spec's test configuration TC1 (spec/95_test_vectors.md). -/
def testKeymap : List (List (List Byte)) :=
  [[[0x04#8, 0x05#8, 0x06#8, 0x07#8], [0xE1#8, 0x00#8, 0x1F#8, 0x09#8]],
   [[0x1E#8, 0x1F#8, 0x20#8, 0x04#8], [0xE0#8, 0x00#8, 0x00#8, 0x09#8]]]

/-- The function-key table of TC1. -/
def testFkt : List FkEntry :=
  [⟨1, 1, .layerSwitch⟩, ⟨0, 3, .other 0x07#8⟩]

/-- The candidate configuration sequence of spec/93_implementation_defined.md I7. -/
def candidateCfgSeq : List (Byte × Byte) :=
  [(0x0A#8, 0x64#8), (0x00#8, 0x00#8), (0x01#8, 0xFF#8), (0x0D#8, 0xFF#8), (0x03#8, 0xFF#8),
   (0x05#8, 0xFF#8), (0x09#8, 0x00#8)]

/-- The parameters of State.reset: the largest matrix R10 admits, the tables of TC1, the defaults of R13
and R16, the candidate registers and addresses of 93 I7. Log 2. -/
def resetParams : Params where
  cols0 := 8
  cols1 := 8
  rows := 8
  layers := 2
  keymap := testKeymap
  fkt := testFkt
  modMap := defaultModMap
  addr0 := 0x20#7
  addr1 := 0x21#7
  regColOut := 0x12#8
  regRowIn := 0x13#8
  cfgSeq := candidateCfgSeq
  reportId := 0x01#8
  policy := .settleConfirm
  depth := .two
  requeuePasses := 1
  pollReload := 5#32
  tSettleUs := 0
  tDebounceMs := 0

end Config

end Sys2Proof
end

