-- ==== Sys2Proof/Machine/Operands.lean ====
section
/-! DEFINITION. What the rules read from the parameters: sizes and masks (spec/00_scope.md R10), table
lookups (R12, R13), chip addresses (R14), column select bytes (spec/41_matrix_scanner.md R154). -/

namespace Sys2Proof

namespace Params

/-- `COLS_PER_CHIP[c]` (R10). -/
def colsOf (p : Params) : Chip → Nat
  | .chip0 => p.cols0.val
  | .chip1 => p.cols1.val

/-- `COLS` (R10). -/
def cols (p : Params) : Nat :=
  p.cols0.val + p.cols1.val

/-- `COL_OFFSET[c]`: chip columns are concatenated in chip order (R10). -/
def colOffset (p : Params) : Chip → Nat
  | .chip0 => 0
  | .chip1 => p.cols0.val

/-- `ROW_MASK = (1 << ROWS) - 1` as an 8-bit value (R10). -/
def rowMask (p : Params) : Byte :=
  (1#8 <<< p.rows) - 1#8

/-- `CHIP_ADDR[c]` (R14). -/
def chipAddr (p : Params) : Chip → BusAddr
  | .chip0 => p.addr0
  | .chip1 => p.addr1

/-- `K` as a number (R16). -/
def k (p : Params) : Nat :=
  match p.depth with
  | .two => 2
  | .three => 3

/-- `H`, the length of the delay line: 1 under SETTLE_CONFIRM and `K - 1` under NOFN (R32). -/
def histLen (p : Params) : Nat :=
  match p.policy with
  | .settleConfirm => 1
  | .nofn => p.k - 1

/-- How many consecutive equal raw reads change a bit of STABLE: 2 under SETTLE_CONFIRM, `K` under NOFN
(R186). -/
def confirmDepth (p : Params) : Nat :=
  p.histLen + 1

/-- `ZERO`, the snapshot of all-zero elements (R18). -/
def zeroSnap (p : Params) : Snapshot :=
  List.replicate p.cols 0#8

/-- `KEYMAP[l][r][c]`; 0 means "no mapping" (R12). -/
def keymapAt (p : Params) (l r c : Nat) : Byte :=
  ((p.keymap.getD l []).getD r []).getD c 0#8

/-- `MOD_BIT(k)`. Keycode 0 is never a modifier (R13, R235). -/
def modBit (p : Params) (k : Byte) : Option (Fin 8) :=
  if k = 0#8 then none else p.modMap.lookup k

/-- The first entry of the function-key table that matches the position (R217). -/
def fkFind (p : Params) (row col : Nat) : Option FkEntry :=
  p.fkt.find? fun e => decide (e.row = row ∧ e.col = col)

/-- The global index of column `i` of chip `c` (R152). -/
def colIndex (p : Params) (c : Chip) (i : Nat) : Nat :=
  p.colOffset c + i

/-- The bounds R10, R11, R14, R16 and R235 set on the parameters. -/
def valid (p : Params) : Bool :=
  decide (1 ≤ p.rows) && decide (p.rows ≤ 8) && decide (1 ≤ p.layers) &&
    decide (p.addr0 ≠ p.addr1) && decide (1 ≤ p.requeuePasses)

end Params

/-- `1 << i` on a `u8` (R18). -/
def bitMask (i : Nat) : Byte :=
  1#8 <<< i

/-- The active-low column select byte of column `i`: all high except bit `i` (R154). -/
def colSelect (i : Nat) : Byte :=
  ~~~ bitMask i

/-- `PARK_VALUE`, every column line driven low (R14, R156). -/
def parkValue : Byte :=
  0x00#8

/-- `value[7:0]`, the first data byte of a word on the bus (R87). -/
def lowByte (v : Half) : Byte :=
  v.extractLsb' 0 8

/-- `value[15:8]`, the second data byte of a word on the bus (R87). -/
def highByte (v : Half) : Byte :=
  v.extractLsb' 8 8

/-- `zext_16(b0) | (zext_16(b1) << 8)`, the value of two bytes read low first (R130). -/
def joinBytes (b0 b1 : Byte) : Half :=
  b0.zeroExtend 16 ||| (b1.zeroExtend 16 <<< 8)

/-- Element `c` of a snapshot (R18). -/
def snapAt (s : Snapshot) (c : Nat) : Byte :=
  s.getD c 0#8

end Sys2Proof
end

