-- ==== Sys2Proof/Syntax.lean ====
section
/-! DEFINITION. The commands of MSF-CMD v1, one constructor per row of spec/opcode_table.json, with the
operand widths of spec/30_encoding.md R102 to R109. -/

namespace Sys2Proof

/-- The 16 commands of R110. -/
inductive Instr where
  /-- INIT (R160): configure both chips. -/
  | init
  /-- CYCLE (R261): one scan cycle of the pipeline. -/
  | cycle
  /-- SCAN (R153): run the scanner once. -/
  | scan
  /-- FILTER (R182): one filter step. -/
  | filter
  /-- DIFF (R202): dispatch the snapshot difference. -/
  | diff
  /-- DISPATCH (R215): dispatch one key event. -/
  | dispatch (pressed : Bool) (row : BitVec 3) (col : BitVec 4)
  /-- ADD_KEY (R236). -/
  | addKey (kc : Byte)
  /-- REMOVE_KEY (R239). -/
  | removeKey (kc : Byte)
  /-- IS_ANY (R242). -/
  | isAny
  /-- SERIALIZE (R243). -/
  | serialize
  /-- TRANSMIT (R245). -/
  | transmit
  /-- WRITE_BYTE (R131). -/
  | writeByte (ch : Chip) (reg : Byte) (val : Byte)
  /-- WRITE_WORD (R132). -/
  | writeWord (ch : Chip) (reg : Byte) (val : Half)
  /-- READ_BYTE (R133). -/
  | readByte (ch : Chip) (reg : Byte)
  /-- READ_WORD (R134). -/
  | readWord (ch : Chip) (reg : Byte)
  /-- RAWSET (R187): write one raw snapshot element. -/
  | rawset (col : BitVec 4) (val : Byte)
  deriving DecidableEq, Repr

/-- The pseudo-commands of R113, each an abbreviation of commands. -/
inductive Pseudo where
  /-- `PRESS rR, cC`. -/
  | press (row : BitVec 3) (col : BitVec 4)
  /-- `RELEASE rR, cC`. -/
  | release (row : BitVec 3) (col : BitVec 4)
  /-- `PASS`. -/
  | pass
  /-- `LOADRAW v0, v1, …, v(COLS-1)`. -/
  | loadraw (vals : List Byte)
  deriving DecidableEq, Repr

end Sys2Proof
end

