-- ==== Sys2Proof/WellFormed.lean ====
section
/-! DEFINITION. The operand range checks of spec/30_encoding.md R106, which the decoder makes after the
word has matched a row of R110. -/

namespace Sys2Proof

/-- R106: DISPATCH must name a row below ROWS and a column below COLS; RAWSET a column below COLS and a
value with no bit at or above ROWS; no other command has a range check. -/
def Instr.wf (p : Params) : Instr → Bool
  | .init => true
  | .cycle => true
  | .scan => true
  | .filter => true
  | .diff => true
  | .dispatch _ row col => decide (row.toNat < p.rows) && decide (col.toNat < p.cols)
  | .addKey _ => true
  | .removeKey _ => true
  | .isAny => true
  | .serialize => true
  | .transmit => true
  | .writeByte _ _ _ => true
  | .writeWord _ _ _ => true
  | .readByte _ _ => true
  | .readWord _ _ => true
  | .rawset col val => decide (col.toNat < p.cols) && decide (val &&& ~~~ p.rowMask = 0#8)

end Sys2Proof
end

