-- ==== Sys2Proof/Decode.lean ====
section
/-! DEFINITION. The decoder of spec/30_encoding.md R115 with the opcode map of R110, and the encoder of
R114. -/

namespace Sys2Proof

/-- Why a word is illegal. The block treats all three alike (R111, R116). -/
inductive Reject where
  /-- `OP` is 0x00 or 0x11 to 0x3F (R111). -/
  | unassignedOpcode
  /-- An assigned `OP` with a reserved bit of its format set (R111). -/
  | reservedBit
  /-- An operand out of range (R106). -/
  | operandRange
  deriving DecidableEq, Repr

/-- One row of the opcode map: the word with every operand field 0, the bits that must equal it, and the
command its fields make (R110). -/
structure OpRow where
  mask : Word
  pattern : Word
  build : Word → Instr

/-- The opcode field `bits[31:26]` (R101). -/
def opField (w : Word) : BitVec 6 :=
  w.extractLsb' 26 6

/-- The chip a `CH` bit names (R107). -/
def chipOfBit (b : BitVec 1) : Chip :=
  if b = 1#1 then .chip1 else .chip0

/-- The `CH` bit of a chip (R107). -/
def bitOfChip : Chip → BitVec 1
  | .chip0 => 0#1
  | .chip1 => 1#1

/-- `KC = bits[7:0]` (R103). -/
def fieldKc (w : Word) : Byte := w.extractLsb' 0 8

/-- `P = bit[8]` (R104). -/
def fieldP (w : Word) : Bool := w.extractLsb' 8 1 == 1#1

/-- `ROW = bits[6:4]` (R104). -/
def fieldRow (w : Word) : BitVec 3 := w.extractLsb' 4 3

/-- `COL = bits[3:0]` of format E (R104). -/
def fieldColE (w : Word) : BitVec 4 := w.extractLsb' 0 4

/-- `COL = bits[11:8]` of format C (R105). -/
def fieldColC (w : Word) : BitVec 4 := w.extractLsb' 8 4

/-- `CH = bit[24]` (R107, R108). -/
def fieldChip (w : Word) : Chip := chipOfBit (w.extractLsb' 24 1)

/-- `REG = bits[23:16]` (R107, R108). -/
def fieldReg (w : Word) : Byte := w.extractLsb' 16 8

/-- `VAL = bits[7:0]` of formats B and C (R105, R107). -/
def fieldByte (w : Word) : Byte := w.extractLsb' 0 8

/-- `VAL = bits[15:0]` of format W (R108). -/
def fieldHalf (w : Word) : Half := w.extractLsb' 0 16

/-- The opcode map of R110, by opcode. -/
def opRow : Nat → Option OpRow
  | 0x01 => some ⟨0xFFFFFFFF#32, 0x04000000#32, fun _ => .init⟩
  | 0x02 => some ⟨0xFFFFFFFF#32, 0x08000000#32, fun _ => .cycle⟩
  | 0x03 => some ⟨0xFFFFFFFF#32, 0x0C000000#32, fun _ => .scan⟩
  | 0x04 => some ⟨0xFFFFFFFF#32, 0x10000000#32, fun _ => .filter⟩
  | 0x05 => some ⟨0xFFFFFFFF#32, 0x14000000#32, fun _ => .diff⟩
  | 0x06 => some ⟨0xFFFFFE80#32, 0x18000000#32, fun w => .dispatch (fieldP w) (fieldRow w) (fieldColE w)⟩
  | 0x07 => some ⟨0xFFFFFF00#32, 0x1C000000#32, fun w => .addKey (fieldKc w)⟩
  | 0x08 => some ⟨0xFFFFFF00#32, 0x20000000#32, fun w => .removeKey (fieldKc w)⟩
  | 0x09 => some ⟨0xFFFFFFFF#32, 0x24000000#32, fun _ => .isAny⟩
  | 0x0A => some ⟨0xFFFFFFFF#32, 0x28000000#32, fun _ => .serialize⟩
  | 0x0B => some ⟨0xFFFFFFFF#32, 0x2C000000#32, fun _ => .transmit⟩
  | 0x0C => some ⟨0xFE00FF00#32, 0x30000000#32, fun w => .writeByte (fieldChip w) (fieldReg w) (fieldByte w)⟩
  | 0x0D => some ⟨0xFE000000#32, 0x34000000#32, fun w => .writeWord (fieldChip w) (fieldReg w) (fieldHalf w)⟩
  | 0x0E => some ⟨0xFE00FFFF#32, 0x38000000#32, fun w => .readByte (fieldChip w) (fieldReg w)⟩
  | 0x0F => some ⟨0xFE00FFFF#32, 0x3C000000#32, fun w => .readWord (fieldChip w) (fieldReg w)⟩
  | 0x10 => some ⟨0xFFFFF000#32, 0x40000000#32, fun w => .rawset (fieldColC w) (fieldByte w)⟩
  | _ => none

/-- R115: total on every word. A word that matches its opcode's row makes that row's command, unless an
operand is out of range (R106). No two rows share an opcode, so at most one row matches a word (R110). -/
def decode (p : Params) (w : Word) : Except Reject Instr :=
  match opRow (opField w).toNat with
  | none => .error .unassignedOpcode
  | some r =>
    if w &&& r.mask = r.pattern then
      if (r.build w).wf p then .ok (r.build w) else .error .operandRange
    else .error .reservedBit

/-- `op << 26` (R114). -/
def opBits (op : BitVec 6) : Word :=
  op.zeroExtend 32 <<< 26

/-- The chip and register fields of formats B and W (R114). -/
def busBits (ch : Chip) (reg : Byte) : Word :=
  ((bitOfChip ch).zeroExtend 32 <<< 24) ||| (reg.zeroExtend 32 <<< 16)

/-- R114: the word of a command. -/
def encode : Instr → Word
  | .init => opBits 0x01#6
  | .cycle => opBits 0x02#6
  | .scan => opBits 0x03#6
  | .filter => opBits 0x04#6
  | .diff => opBits 0x05#6
  | .dispatch p r c =>
    opBits 0x06#6 ||| ((BitVec.ofBool p).zeroExtend 32 <<< 8) ||| (r.zeroExtend 32 <<< 4) ||| c.zeroExtend 32
  | .addKey kc => opBits 0x07#6 ||| kc.zeroExtend 32
  | .removeKey kc => opBits 0x08#6 ||| kc.zeroExtend 32
  | .isAny => opBits 0x09#6
  | .serialize => opBits 0x0A#6
  | .transmit => opBits 0x0B#6
  | .writeByte h g v => opBits 0x0C#6 ||| busBits h g ||| v.zeroExtend 32
  | .writeWord h g v => opBits 0x0D#6 ||| busBits h g ||| v.zeroExtend 32
  | .readByte h g => opBits 0x0E#6 ||| busBits h g
  | .readWord h g => opBits 0x0F#6 ||| busBits h g
  | .rawset c v => opBits 0x10#6 ||| (c.zeroExtend 32 <<< 8) ||| v.zeroExtend 32

/-- R113: the commands a pseudo-command stands for; `LOADRAW` takes one value per column. -/
def Pseudo.expand (p : Params) : Pseudo → Option (List Instr)
  | .press r c => some [.dispatch true r c]
  | .release r c => some [.dispatch false r c]
  | .pass => some [.scan, .filter, .diff]
  | .loadraw vals =>
    if vals.length = p.cols then
      some ((vals.zipIdx).map fun e => .rawset (BitVec.ofNat 4 e.2) e.1)
    else none

/-- The command the decoder reads from the bits `w` of an opcode-table row, every bit at or above `nbits`
being 0. The operand range checks of R106 are those of the reset state's parameters, under which every
operand an encoding admits is in range (log 2). -/
def decodeTableWord (nbits w : Nat) : Option Instr :=
  if w % 2 ^ nbits < 2 ^ 32 then
    match decode Config.resetParams (BitVec.ofNat 32 (w % 2 ^ nbits)) with
    | .ok i => some i
    | .error _ => none
  else none

end Sys2Proof
end

