-- ==== Sys2Proof/Machine/State.lean ====
section
/-! DEFINITION. The state of the block (spec/10_state.md), the environment's inputs as plain data, and the
state after reset (spec/70_reset_and_hazards.md R310). -/

namespace Sys2Proof.Machine

/-- `SCAN_STATE` (R46). -/
inductive ScanState where
  | idle
  | select
  | settle
  | sample
  | park
  deriving DecidableEq, Repr

/-- `PIPE_PHASE` (R47). -/
inductive PipePhase where
  | idle
  | pass
  | send
  | finish
  deriving DecidableEq, Repr

/-- The two waits (R20). -/
inductive WaitKind where
  | settle
  | debounce
  deriving DecidableEq, Repr

/-- "press = begin, release = end" of a non-layer action (R220). -/
inductive ActEdge where
  | actBegin
  | actEnd
  deriving DecidableEq, Repr

/-- What became of an interrupt edge (R266). -/
inductive IrqKind where
  | taken
  | dropped
  deriving DecidableEq, Repr

/-- The event kinds of `TRACE` (R49). -/
inductive Event where
  /-- `BUS_W(addr7, bytes, status)`. -/
  | busW (addr : BusAddr) (bytes : List Byte) (status : Byte)
  /-- `BUS_R(addr7, n, bytes, status)`. -/
  | busR (addr : BusAddr) (n : Nat) (bytes : List Byte) (status : Byte)
  /-- `WAIT(kind)`. -/
  | wait (kind : WaitKind)
  /-- `KEY(row, col, pressed)`. -/
  | key (row col : Nat) (pressed : Bool)
  /-- `ACT(id, BEGIN | END)`. -/
  | act (id : Byte) (edge : ActEdge)
  /-- `SEND(bytes, accepted)`. -/
  | send (bytes : List Byte) (accepted : Bool)
  /-- `IRQ(TAKEN | DROPPED)`. -/
  | irq (kind : IrqKind)
  deriving DecidableEq, Repr

/-- The snapshot registers and the filter's flag (R31 to R35). -/
structure SnapRegs where
  /-- `RAW` (R31). -/
  raw : Snapshot
  /-- `HIST[1] .. HIST[H]`, `HIST[j]` at position `j - 1` (R32). -/
  hist : List Snapshot
  /-- `STABLE` (R33). -/
  stable : Snapshot
  /-- `STABLE_PREV` (R34). -/
  stablePrev : Snapshot
  /-- `PENDING` (R35). -/
  pending : Bool
  deriving DecidableEq, Repr

/-- `SLOT[0] .. SLOT[5]` (R38). -/
structure Slots where
  s0 : Byte
  s1 : Byte
  s2 : Byte
  s3 : Byte
  s4 : Byte
  s5 : Byte
  deriving DecidableEq, Repr

/-- The report assembler's registers (R37 to R40). -/
structure Report where
  /-- `MODS` (R37). -/
  mods : Byte
  /-- `SLOT` (R38). -/
  slots : Slots
  /-- `DIRTY` (R39). -/
  dirty : Bool
  /-- `LAST_SEND_OK` (R40). -/
  lastSendOk : Bool
  deriving DecidableEq, Repr

/-- The device and interrupt flags (R41 to R43). -/
structure DevRegs where
  /-- `READY[0]` (R41). -/
  ready0 : Bool
  /-- `READY[1]` (R41). -/
  ready1 : Bool
  /-- `INITIALIZED` (R42). -/
  initialized : Bool
  /-- `IRQ_EN` (R43). -/
  irqEn : Bool
  deriving DecidableEq, Repr

/-- The command port's outputs (R45). -/
structure PortRegs where
  /-- `STATUS` (R45). -/
  status : Byte
  /-- `RESULT` (R45). -/
  result : List Byte
  deriving DecidableEq, Repr

/-- The sequencing registers (R46, R47). -/
structure SeqRegs where
  /-- `SCAN_STATE` (R46). -/
  scanState : ScanState
  /-- `SCAN_CHIP` (R46). -/
  scanChip : Chip
  /-- `SCAN_COL`, in 0..8 (R46). -/
  scanCol : Nat
  /-- `PIPE_PHASE` (R47). -/
  pipePhase : PipePhase
  /-- `PASS_COUNT` (R47). -/
  passCount : Nat
  deriving DecidableEq, Repr

/-- What the environment does between commands (R267). -/
inductive Input where
  /-- It presents a command word (R100). -/
  | command (w : Word)
  /-- It raises one falling interrupt edge (R266). -/
  | edge
  deriving DecidableEq, Repr

/-- The environment's answer to one `BusRead` of up to two bytes: a read of `n` bytes takes the first `n`,
so that it returns exactly `n` (R84). Log 3. -/
structure ReadAnswer where
  low : Byte
  high : Byte
  status : Byte
  deriving DecidableEq, Repr

/-- The environment's inputs to come, oldest first: the model's own fields, not the spec's (logs 3 to 5). -/
structure Env where
  /-- Command words and interrupt edges between commands. -/
  inputs : List Input
  /-- How many interrupt edges fall at each next interleaving point inside a command (R94); no entry, no
  edge. -/
  edges : List Nat
  /-- The statuses of the next `BusWrite` calls; no entry, a free value. -/
  writeAnswers : List Byte
  /-- The answers of the next `BusRead` calls; no entry, a free value. -/
  readAnswers : List ReadAnswer
  /-- The accept flags of the next `Send` calls; no entry, a free value. -/
  sendAnswers : List Bool
  /-- How many free values have been drawn. -/
  freeCount : Nat
  deriving DecidableEq, Repr

/-- The whole state: the parameters (no step changes them, R50), every register of spec/10_state.md, the
trace, and the environment's inputs. -/
structure State where
  /-- The parameters of R9 to R17. -/
  cfg : Params
  /-- `RAW`, `HIST`, `STABLE`, `STABLE_PREV`, `PENDING`. -/
  snap : SnapRegs
  /-- `LAYER`, in 0..LAYERS-1 (R36). -/
  layer : Nat
  /-- `MODS`, `SLOT`, `DIRTY`, `LAST_SEND_OK`. -/
  report : Report
  /-- `READY`, `INITIALIZED`, `IRQ_EN`. -/
  dev : DevRegs
  /-- `WAKE` (R44). -/
  wake : Word
  /-- `STATUS`, `RESULT`. -/
  port : PortRegs
  /-- `SCAN_STATE`, `SCAN_CHIP`, `SCAN_COL`, `PIPE_PHASE`, `PASS_COUNT`. -/
  seq : SeqRegs
  /-- `TRACE`, oldest event first (R49). -/
  trace : List Event
  /-- The environment's inputs. -/
  env : Env
  deriving DecidableEq, Repr

/-- Why a step could stop the machine. The block has no trap and no fatal path: "No error stops the block"
(R280), and no behaviour of it is treated as a fault (spec/93_implementation_defined.md). So no
constructor exists, and nothing raises one. -/
inductive Fault where
  deriving DecidableEq, Repr

/-- Why an instruction could have no meaning. -/
inductive Refusal where
  /-- The instruction has no meaning in the model yet. Safe. Every command has one, so `exec` never
  answers this. -/
  | notModelled (mnemonic : String)
  deriving DecidableEq, Repr

namespace State

/-- Replaces the snapshot registers. -/
def setSnap (s : State) (v : SnapRegs) : State := { s with snap := v }

/-- Replaces `LAYER`. -/
def setLayer (s : State) (v : Nat) : State := { s with layer := v }

/-- Replaces the report registers. -/
def setReport (s : State) (v : Report) : State := { s with report := v }

/-- Replaces the device flags. -/
def setDev (s : State) (v : DevRegs) : State := { s with dev := v }

/-- Replaces `WAKE`. -/
def setWake (s : State) (v : Word) : State := { s with wake := v }

/-- Replaces the command port's outputs. -/
def setPort (s : State) (v : PortRegs) : State := { s with port := v }

/-- Replaces the sequencing registers. -/
def setSeq (s : State) (v : SeqRegs) : State := { s with seq := v }

/-- Replaces the trace. -/
def setTrace (s : State) (v : List Event) : State := { s with trace := v }

/-- Replaces the environment's inputs. -/
def setEnv (s : State) (v : Env) : State := { s with env := v }

/-- The state after reset for given parameters: every register at the value of R310, and an environment
that has scripted nothing yet. -/
def resetWith (p : Params) : State where
  cfg := p
  snap :=
    { raw := p.zeroSnap, hist := List.replicate p.histLen p.zeroSnap, stable := p.zeroSnap,
      stablePrev := p.zeroSnap, pending := false }
  layer := 0
  report := { mods := 0x00#8, slots := ⟨0#8, 0#8, 0#8, 0#8, 0#8, 0#8⟩, dirty := false, lastSendOk := true }
  dev := { ready0 := false, ready1 := false, initialized := false, irqEn := false }
  wake := 0#32
  port := { status := 0x00#8, result := [] }
  seq := { scanState := .idle, scanChip := .chip0, scanCol := 0, pipePhase := .idle, passCount := 0 }
  trace := []
  env :=
    { inputs := [], edges := [], writeAnswers := [], readAnswers := [], sendAnswers := [], freeCount := 0 }

/-- The machine right after reset (R310), with the parameters of log 2. -/
def reset : State :=
  resetWith Config.resetParams

end State

end Sys2Proof.Machine
end

