-- ==== Sys2Proof/Machine/Flags.lean ====
section
/-! DEFINITION. How each flag of spec/10_state.md R48 and each flag byte of RESULT is computed. -/

namespace Sys2Proof.Machine

/-- `PENDING` after a filter step: 1 exactly when `STABLE != RAW` (R185). -/
def pendingFlag (stable raw : Snapshot) : Bool :=
  decide (stable ≠ raw)

/-- `DIRTY` after a report operation: set when `MODS` or a `SLOT` changed, else kept (R237, R240). -/
def dirtyFlag (before after : Report) : Bool :=
  before.dirty || decide ((after.mods, after.slots) ≠ (before.mods, before.slots))

/-- A flag as a 1-bit number in a byte. -/
def flagByte (b : Bool) : Byte :=
  if b then 0x01#8 else 0x00#8

/-- INIT's result byte `READY[0] | (READY[1] << 1)` (R160). -/
def readyByte (d : DevRegs) : Byte :=
  flagByte d.ready0 ||| (flagByte d.ready1 <<< 1)

/-- The flag IS_ANY returns: a modifier bit is set or a slot is not empty (R242). -/
def anyPressed (r : Report) : Bool :=
  decide (r.mods ≠ 0#8) || decide (r.slots.s0 ≠ 0#8) || decide (r.slots.s1 ≠ 0#8) || decide (r.slots.s2 ≠ 0#8) ||
    decide (r.slots.s3 ≠ 0#8) || decide (r.slots.s4 ≠ 0#8) || decide (r.slots.s5 ≠ 0#8)

/-- `READY[c]` (R41). -/
def DevRegs.ready (d : DevRegs) : Chip → Bool
  | .chip0 => d.ready0
  | .chip1 => d.ready1

/-- `READY[c] <- b` (R160). -/
def DevRegs.setReady (d : DevRegs) (c : Chip) (b : Bool) : DevRegs :=
  match c with
  | .chip0 => { d with ready0 := b }
  | .chip1 => { d with ready1 := b }

end Sys2Proof.Machine
end

