-- ==== Sys2Proof/Machine/Ops.lean ====
section
/-! DEFINITION. The shared operations: the interrupt event and where it may fall (spec/46_pipeline_control.md
R266, spec/20_memory.md R94), trace events, the bus primitive (R84), the driver functions
(spec/40_expander_driver.md R130), and how a command ends (R20, R281). -/

namespace Sys2Proof.Machine

/-! ### The interrupt event: the block's only exception-like event -/

/-- `IRQ_EDGE` (R266): with the source enabled, `WAKE <- POLL_RELOAD` and `IRQ(TAKEN)`; else the edge is
dropped. It saves no state, changes no mode and has no return (R289, R290). -/
def irqEdge (s : State) : State :=
  if s.dev.irqEn then (s.setWake s.cfg.pollReload).setTrace (s.trace ++ [.irq .taken])
  else s.setTrace (s.trace ++ [.irq .dropped])

/-- `n` edges, one after the other: "A second edge is a second event" (R290). -/
def irqEdges : Nat → State → State
  | 0, s => s
  | n + 1, s => irqEdges n (irqEdge s)

/-- One interleaving point inside a command (R94): the edges the environment raises there. -/
def interleave (s : State) : State :=
  match s.env.edges with
  | [] => s
  | n :: rest => irqEdges n (s.setEnv { s.env with edges := rest })

/-- `Emit(e)` (R20), with an interleaving point before it. -/
def emit (e : Event) (s : State) : State :=
  (interleave s).setTrace ((interleave s).trace ++ [e])

/-- `Wait(kind)` (R20): a trace marker that takes no modelled time. -/
def waitFor (kind : WaitKind) (s : State) : State :=
  emit (.wait kind) s

/-- `IRQ_EN <- b`, with an interleaving point before it, so that an edge can fall on either side of the
write (R94). -/
def setIrqEn (b : Bool) (s : State) : State :=
  (interleave s).setDev { (interleave s).dev with irqEn := b }

/-- `if WAKE > 0: WAKE <- WAKE - 1`, one indivisible step with an interleaving point before it (R264). -/
def wakeDecrement (s : State) : State :=
  (interleave s).setWake (if (interleave s).wake = 0#32 then 0#32 else (interleave s).wake - 1#32)

/-! ### The environment's answers -/

/-- The status of the next `BusWrite` (R84). -/
def Env.nextStatus (e : Env) : Byte :=
  e.writeAnswers.headD (Config.freeBusStatus e.freeCount)

/-- The inputs after one `BusWrite` is answered. -/
def Env.dropStatus (e : Env) : Env :=
  match e.writeAnswers with
  | [] => { e with freeCount := e.freeCount + 1 }
  | _ :: rest => { e with writeAnswers := rest }

/-- The answer to the next `BusRead` (R84). -/
def Env.nextRead (e : Env) : ReadAnswer :=
  e.readAnswers.headD
    ⟨Config.freeReadLow e.freeCount, Config.freeReadHigh e.freeCount, Config.freeBusStatus e.freeCount⟩

/-- The inputs after one `BusRead` is answered. -/
def Env.dropRead (e : Env) : Env :=
  match e.readAnswers with
  | [] => { e with freeCount := e.freeCount + 1 }
  | _ :: rest => { e with readAnswers := rest }

/-- The accept flag of the next `Send` (R245). -/
def Env.nextAccepted (e : Env) : Bool :=
  e.sendAnswers.headD (Config.freeAccepted e.freeCount)

/-- The inputs after one `Send` is answered. -/
def Env.dropAccepted (e : Env) : Env :=
  match e.sendAnswers with
  | [] => { e with freeCount := e.freeCount + 1 }
  | _ :: rest => { e with sendAnswers := rest }

/-- The `n` bytes a read returns. -/
def ReadAnswer.bytes (a : ReadAnswer) (n : Nat) : List Byte :=
  [a.low, a.high].take n

/-! ### The bus transaction primitive and the HID transport -/

/-- `BusWrite(addr7, bytes) -> status` (R84). -/
def busWrite (a : BusAddr) (bytes : List Byte) (s : State) : Byte × State :=
  (s.env.nextStatus, emit (.busW a bytes s.env.nextStatus) (s.setEnv s.env.dropStatus))

/-- `BusRead(addr7, n) -> (bytes, status)` (R84). -/
def busRead (a : BusAddr) (n : Nat) (s : State) : ReadAnswer × State :=
  (s.env.nextRead,
    emit (.busR a n (s.env.nextRead.bytes n) s.env.nextRead.status) (s.setEnv s.env.dropRead))

/-- `Send(bytes) -> accepted` (R20, R245). -/
def hidSend (bytes : List Byte) (s : State) : Bool × State :=
  (s.env.nextAccepted, emit (.send bytes s.env.nextAccepted) (s.setEnv s.env.dropAccepted))

/-! ### The expander register driver (R130) -/

/-- `drvWriteByte(c, reg, v) -> ok`. -/
def drvWriteByte (c : Chip) (reg v : Byte) (s : State) : Bool × State :=
  let w := busWrite (s.cfg.chipAddr c) [reg, v] s
  (decide (w.1 = 0#8), w.2)

/-- `drvWriteWord(c, reg, v) -> ok`: the low byte first (R87). -/
def drvWriteWord (c : Chip) (reg : Byte) (v : Half) (s : State) : Bool × State :=
  let w := busWrite (s.cfg.chipAddr c) [reg, lowByte v, highByte v] s
  (decide (w.1 = 0#8), w.2)

/-- `drvReadByte(c, reg) -> (v, ok)`: a failed register-select write skips the read; a failure returns
`0x00`. -/
def drvReadByte (c : Chip) (reg : Byte) (s : State) : (Byte × Bool) × State :=
  let w := busWrite (s.cfg.chipAddr c) [reg] s
  if w.1 = 0#8 then
    let r := busRead (s.cfg.chipAddr c) 1 w.2
    if r.1.status = 0#8 then ((r.1.low, true), r.2) else ((0x00#8, false), r.2)
  else ((0x00#8, false), w.2)

/-- `drvReadWord(c, reg) -> (v, ok)`: the first byte read is the low byte (R87). -/
def drvReadWord (c : Chip) (reg : Byte) (s : State) : (Half × Bool) × State :=
  let w := busWrite (s.cfg.chipAddr c) [reg] s
  if w.1 = 0#8 then
    let r := busRead (s.cfg.chipAddr c) 2 w.2
    if r.1.status = 0#8 then ((joinBytes r.1.low r.1.high, true), r.2) else ((0x0000#16, false), r.2)
  else ((0x0000#16, false), w.2)

/-! ### How a command ends -/

/-- STATUS code OK (R281). -/
def statusOk : Byte := 0x00#8

/-- STATUS code ILLEGAL_COMMAND (R281). -/
def statusIllegal : Byte := 0x01#8

/-- STATUS code BUS_ERROR (R281). -/
def statusBusError : Byte := 0x02#8

/-- STATUS code SEND_REJECTED (R281). -/
def statusSendRejected : Byte := 0x03#8

/-- `STATUS <- st; RESULT <- res`, the last line of every command (R45). -/
def complete (st : Byte) (res : List Byte) (s : State) : State :=
  s.setPort ⟨st, res⟩

/-- `raise E` (R20): the command ends with the code of E and an empty RESULT; writes already made stay. -/
def raise (code : Byte) (s : State) : State :=
  complete code [] s

/-- An illegal command (R116): STATUS and RESULT change, nothing else, and nothing joins the trace. -/
def illegalCommand (s : State) : State :=
  raise statusIllegal s

end Sys2Proof.Machine
end

