-- ==== Sys2Proof/Machine/Driver.lean ====
section
/-! DEFINITION. The expander register driver commands (spec/40_expander_driver.md R131 to R134). They reach
the bus whatever `READY` holds, and change no block register but STATUS and RESULT. -/

namespace Sys2Proof.Machine

/-- WRITE_BYTE (R131). -/
def execWriteByte (ch : Chip) (reg val : Byte) (s : State) : Host.Outcome State Fault Refusal :=
  let w := drvWriteByte ch reg val s
  .next (if w.1 then complete statusOk [] w.2 else raise statusBusError w.2)

/-- WRITE_WORD (R132). -/
def execWriteWord (ch : Chip) (reg : Byte) (val : Half) (s : State) : Host.Outcome State Fault Refusal :=
  let w := drvWriteWord ch reg val s
  .next (if w.1 then complete statusOk [] w.2 else raise statusBusError w.2)

/-- READ_BYTE (R133): the value as read, no row mask. -/
def execReadByte (ch : Chip) (reg : Byte) (s : State) : Host.Outcome State Fault Refusal :=
  let r := drvReadByte ch reg s
  .next (if r.1.2 then complete statusOk [r.1.1] r.2 else raise statusBusError r.2)

/-- READ_WORD (R134): RESULT lists the low byte first. -/
def execReadWord (ch : Chip) (reg : Byte) (s : State) : Host.Outcome State Fault Refusal :=
  let r := drvReadWord ch reg s
  .next (if r.1.2 then complete statusOk [lowByte r.1.1, highByte r.1.1] r.2 else raise statusBusError r.2)

end Sys2Proof.Machine
end

