-- ==== Sys2Proof/Machine/Report.lean ====
section
/-! DEFINITION. The report assembler (spec/45_report_assembler.md): ADD_KEY, REMOVE_KEY, IS_ANY, SERIALIZE and
TRANSMIT. -/

namespace Sys2Proof.Machine

/-- A keycode into the first empty slot, or, with all six occupied, slot 0 evicted and the key at slot 5
(R236). -/
def Slots.insert (k : Byte) (t : Slots) : Slots :=
  if t.s0 = 0#8 then { t with s0 := k }
  else if t.s1 = 0#8 then { t with s1 := k }
  else if t.s2 = 0#8 then { t with s2 := k }
  else if t.s3 = 0#8 then { t with s3 := k }
  else if t.s4 = 0#8 then { t with s4 := k }
  else if t.s5 = 0#8 then { t with s5 := k }
  else ⟨t.s1, t.s2, t.s3, t.s4, t.s5, k⟩

/-- The first slot that holds the keycode cleared and the rest compacted leftward (R239). -/
def Slots.remove (k : Byte) (t : Slots) : Slots :=
  if t.s0 = k then ⟨t.s1, t.s2, t.s3, t.s4, t.s5, 0#8⟩
  else if t.s1 = k then ⟨t.s0, t.s2, t.s3, t.s4, t.s5, 0#8⟩
  else if t.s2 = k then ⟨t.s0, t.s1, t.s3, t.s4, t.s5, 0#8⟩
  else if t.s3 = k then ⟨t.s0, t.s1, t.s2, t.s4, t.s5, 0#8⟩
  else if t.s4 = k then ⟨t.s0, t.s1, t.s2, t.s3, t.s5, 0#8⟩
  else if t.s5 = k then ⟨t.s0, t.s1, t.s2, t.s3, t.s4, 0#8⟩
  else t

/-- The six slots, slot 0 first. -/
def Slots.toList (t : Slots) : List Byte :=
  [t.s0, t.s1, t.s2, t.s3, t.s4, t.s5]

/-- The report with `DIRTY` as the change from `before` makes it (R237, R240). -/
def markChange (before after : Report) : Report :=
  { after with dirty := dirtyFlag before after }

/-- `addKey(k)` on the report (R236). -/
def addKeyReport (p : Params) (k : Byte) (r : Report) : Report :=
  if k = 0#8 then r
  else
    match p.modBit k with
    | some b => markChange r { r with mods := r.mods ||| bitMask b.val }
    | none => markChange r { r with slots := r.slots.insert k }

/-- `removeKey(k)` on the report (R239). -/
def removeKeyReport (p : Params) (k : Byte) (r : Report) : Report :=
  if k = 0#8 then r
  else
    match p.modBit k with
    | some b => markChange r { r with mods := r.mods &&& ~~~ bitMask b.val }
    | none => markChange r { r with slots := r.slots.remove k }

/-- `addKey(k)` (R236). -/
def addKey (k : Byte) (s : State) : State :=
  s.setReport (addKeyReport s.cfg k s.report)

/-- `removeKey(k)` (R239). -/
def removeKey (k : Byte) (s : State) : State :=
  s.setReport (removeKeyReport s.cfg k s.report)

/-- `serialize()`: report id, modifier byte, reserved zero, six keycode bytes (R243, R86). -/
def serialize (p : Params) (r : Report) : List Byte :=
  p.reportId :: r.mods :: 0x00#8 :: r.slots.toList

/-- `transmit() -> accepted` (R245): `DIRTY` is cleared whatever the answer. -/
def transmit (s : State) : Bool × State :=
  let a := hidSend (serialize s.cfg s.report) s
  (a.1, a.2.setReport { a.2.report with lastSendOk := a.1, dirty := false })

/-- ADD_KEY (R236). -/
def execAddKey (kc : Byte) (s : State) : Host.Outcome State Fault Refusal :=
  .next (complete statusOk [] (addKey kc s))

/-- REMOVE_KEY (R239). -/
def execRemoveKey (kc : Byte) (s : State) : Host.Outcome State Fault Refusal :=
  .next (complete statusOk [] (removeKey kc s))

/-- IS_ANY (R242). -/
def execIsAny (s : State) : Host.Outcome State Fault Refusal :=
  .next (complete statusOk [flagByte (anyPressed s.report)] s)

/-- SERIALIZE (R243). -/
def execSerialize (s : State) : Host.Outcome State Fault Refusal :=
  .next (complete statusOk (serialize s.cfg s.report) s)

/-- TRANSMIT (R245): it sends whatever `DIRTY` holds. -/
def execTransmit (s : State) : Host.Outcome State Fault Refusal :=
  let a := transmit s
  .next (if a.1 then complete statusOk [] a.2 else raise statusSendRejected a.2)

end Sys2Proof.Machine
end

