-- ==== Sys2Proof/Machine/Keymap.lean ====
section
/-! DEFINITION. The keymap dispatcher (spec/44_keymap_dispatcher.md): the dispatch function (R216) and
DISPATCH (R215). -/

namespace Sys2Proof.Machine

/-- `LayerSwitch(pressed)`: up on a press, clamped to LAYERS - 1, down on a release, clamped to 0 (R219). -/
def layerSwitch (pressed : Bool) (s : State) : State :=
  s.setLayer (if pressed then min (s.layer + 1) (s.cfg.layers - 1) else s.layer - 1)

/-- `Other(id, pressed)`: an ACT event, no block state (R220). -/
def otherAction (id : Byte) (pressed : Bool) (s : State) : State :=
  emit (.act id (if pressed then .actBegin else .actEnd)) s

/-- `invokeAction(a, pressed)` (R218). -/
def invokeAction (a : Action) (pressed : Bool) (s : State) : State :=
  match a with
  | .layerSwitch => layerSwitch pressed s
  | .other id => otherAction id pressed s

/-- The press path (R221): the current layer's keycode, if any, is added. -/
def pressKey (row col : Nat) (s : State) : State :=
  let kc := s.cfg.keymapAt s.layer row col
  if kc ≠ 0#8 then addKey kc s else s

/-- One layer of the release path: its keycode, if any, is removed (R222). -/
def releaseOnLayer (row col : Nat) (s : State) (l : Nat) : State :=
  let kc := s.cfg.keymapAt l row col
  if kc ≠ 0#8 then removeKey kc s else s

/-- The release path (R222): every layer, in ascending order. -/
def releaseKey (row col : Nat) (s : State) : State :=
  (List.range s.cfg.layers).foldl (releaseOnLayer row col) s

/-- The dispatch function (R216): the first matching function key consumes the event (R217). -/
def dispatchEvent (row col : Nat) (pressed : Bool) (s : State) : State :=
  match s.cfg.fkFind row col with
  | some e => invokeAction e.action pressed s
  | none => if pressed then pressKey row col s else releaseKey row col s

/-- DISPATCH (R215). An operand out of range is an illegal command (R106), which the decoder has refused. -/
def execDispatch (pressed : Bool) (row : BitVec 3) (col : BitVec 4) (s : State) :
    Host.Outcome State Fault Refusal :=
  .next
    (if row.toNat < s.cfg.rows ∧ col.toNat < s.cfg.cols then
      complete statusOk [] (dispatchEvent row.toNat col.toNat pressed s)
    else illegalCommand s)

end Sys2Proof.Machine
end

