-- ==== Sys2Proof/Machine/Diff.lean ====
section
/-! DEFINITION. The edge dispatcher (spec/43_edge_dispatcher.md): EdgeDispatch (R200) and DIFF (R202). -/

namespace Sys2Proof.Machine

/-- A Key Event (R23). -/
structure KeyEvent where
  row : Nat
  col : Nat
  pressed : Bool
  deriving DecidableEq, Repr

/-- The events of one column: rows in ascending bit order (R200). -/
def columnEvents (col : Nat) (prev curr : Byte) : List KeyEvent :=
  ((List.range 8).filter fun r => (prev ^^^ curr).getLsbD r).map fun r => ⟨r, col, curr.getLsbD r⟩

/-- `EdgeDispatch(prev, curr)` over `cols` columns in ascending order (R200). It reads and writes no state. -/
def edgeDispatch (cols : Nat) (prev curr : Snapshot) : List KeyEvent :=
  (List.range cols).flatMap fun c => columnEvents c (snapAt prev c) (snapAt curr c)

/-- One event of DIFF: recorded, then dispatched (R202). -/
def emitAndDispatch (s : State) (e : KeyEvent) : State :=
  dispatchEvent e.row e.col e.pressed (emit (.key e.row e.col e.pressed) s)

/-- The body of DIFF (R202), without its STATUS write. -/
def diffBody (s : State) : State :=
  let t := (edgeDispatch s.cfg.cols s.snap.stablePrev s.snap.stable).foldl emitAndDispatch s
  t.setSnap { t.snap with stablePrev := t.snap.stable }

/-- DIFF (R202). -/
def execDiff (s : State) : Host.Outcome State Fault Refusal :=
  .next (complete statusOk [] (diffBody s))

end Sys2Proof.Machine
end

