-- ==== Sys2Proof/Machine/Filter.lean ====
section
/-! DEFINITION. The debounce filter (spec/42_debounce_filter.md): FILTER (R182) with its two policies (R183,
R184), and RAWSET (R187). -/

namespace Sys2Proof.Machine

/-- `HIST[j]`, for `j` from 1 (R32). -/
def histAt (hist : List Snapshot) (j : Nat) : Snapshot :=
  hist.getD (j - 1) []

/-- The delay line shifted by one: `HIST[j] <- HIST[j-1]` from the oldest, then `HIST[1] <- RAW`; it keeps
its length `h` (R184; R183 with `h = 1`). -/
def shiftHist (h : Nat) (raw : Snapshot) (hist : List Snapshot) : List Snapshot :=
  (raw :: hist).take h

/-- STABLE after a settle-and-confirm step (R183). -/
def settleStable (r : SnapRegs) : Snapshot :=
  if r.raw = histAt r.hist 1 then r.raw else r.stable

/-- The bits that are 1 in every tap at column `c` (R184). -/
def agreeOne (h : Nat) (r : SnapRegs) (c : Nat) : Byte :=
  (List.range h).foldl (fun a j => a &&& snapAt (histAt r.hist (j + 1)) c) (snapAt r.raw c)

/-- The bits below ROWS that are 0 in every tap at column `c` (R184). -/
def agreeZero (mask : Byte) (h : Nat) (r : SnapRegs) (c : Nat) : Byte :=
  (List.range h).foldl (fun a j => a &&& ~~~ snapAt (histAt r.hist (j + 1)) c) (~~~ snapAt r.raw c &&& mask)

/-- STABLE after an N-of-N step (R184). -/
def nofnStable (p : Params) (r : SnapRegs) : Snapshot :=
  (List.range p.cols).map fun c =>
    (snapAt r.stable c ||| agreeOne p.histLen r c) &&& ~~~ agreeZero p.rowMask p.histLen r c

/-- STABLE after a filter step under the configured policy (R180). -/
def nextStable (p : Params) (r : SnapRegs) : Snapshot :=
  match p.policy with
  | .settleConfirm => settleStable r
  | .nofn => nofnStable p r

/-- The snapshot registers after one filter step (R182). -/
def filterRegs (p : Params) (r : SnapRegs) : SnapRegs :=
  { r with
    hist := shiftHist p.histLen r.raw r.hist
    stable := nextStable p r
    pending := pendingFlag (nextStable p r) r.raw }

/-- The body of FILTER (R182), without its STATUS write. -/
def filterBody (s : State) : State :=
  s.setSnap (filterRegs s.cfg s.snap)

/-- FILTER (R182). -/
def execFilter (s : State) : Host.Outcome State Fault Refusal :=
  .next (complete statusOk [] (filterBody s))

/-- RAWSET (R187). An operand out of range is an illegal command (R106), which the decoder has refused. -/
def execRawset (col : BitVec 4) (val : Byte) (s : State) : Host.Outcome State Fault Refusal :=
  .next
    (if col.toNat < s.cfg.cols ∧ val &&& ~~~ s.cfg.rowMask = 0#8 then
      complete statusOk [] (s.setSnap { s.snap with raw := s.snap.raw.set col.toNat val })
    else illegalCommand s)

end Sys2Proof.Machine
end

