-- ==== Sys2Proof/Machine/Scanner.lean ====
section
/-! DEFINITION. The matrix scanner and chip initialization (spec/41_matrix_scanner.md): SCAN (R153), INIT
(R160), and the scanner's state machine (R151), which runs the same scan one step at a time. -/

namespace Sys2Proof.Machine

/-- `RAW[idx] <- v`. -/
def storeRaw (idx : Nat) (v : Byte) (s : State) : State :=
  s.setSnap { s.snap with raw := s.snap.raw.set idx v }

/-- `SCAN_STATE <- st`, with the chip and the column the scanner is at (R46). -/
def scanAt (st : ScanState) (c : Chip) (i : Nat) (s : State) : State :=
  s.setSeq { s.seq with scanState := st, scanChip := c, scanCol := i }

/-- The select write of column `i` of chip `c` (R154). -/
def selectWrite (c : Chip) (i : Nat) (s : State) : Bool × State :=
  drvWriteByte c s.cfg.regColOut (colSelect i) s

/-- The row read and the store of column `i` of chip `c`: the byte under ROW_MASK, or `0x00` when the read
failed (R155). -/
def sampleStore (c : Chip) (i : Nat) (s : State) : State :=
  let r := drvReadByte c s.cfg.regRowIn s
  storeRaw (s.cfg.colIndex c i) (if r.1.2 then r.1.1 &&& s.cfg.rowMask else 0x00#8) r.2

/-- The park write of chip `c`, its result ignored (R156). -/
def parkWrite (c : Chip) (s : State) : State :=
  (drvWriteByte c s.cfg.regColOut parkValue s).2

/-- One column of the loop of R153. -/
def scanColumn (c : Chip) (s : State) (i : Nat) : State :=
  let w := selectWrite c i (scanAt .select c i s)
  if w.1 then
    sampleStore c i (scanAt .sample c i (waitFor .settle (scanAt .settle c i w.2)))
  else storeRaw (s.cfg.colIndex c i) 0x00#8 w.2

/-- One chip of the loop of R153: nothing at all when it is not ready (R158), else its columns in ascending
order and then the park write. -/
def scanChip (c : Chip) (s : State) : State :=
  if s.dev.ready c then
    parkWrite c (scanAt .park c (s.cfg.colsOf c) ((List.range (s.cfg.colsOf c)).foldl (scanColumn c) s))
  else s

/-- How a scan begins: the interrupt disabled (R157), `RAW <- ZERO`, chip 0, column 0 (R151). -/
def beginScan (s : State) : State :=
  let t := setIrqEn false s
  let u := t.setSnap { t.snap with raw := t.cfg.zeroSnap }
  u.setSeq { u.seq with scanChip := .chip0, scanCol := 0 }

/-- How a scan ends: `SCAN_STATE <- IDLE`, `IRQ_EN <- INITIALIZED` (R157). SCAN_CHIP and SCAN_COL then hold
"no meaningful value" (R46): free values, log 6. -/
def endScan (s : State) : State :=
  let t := setIrqEn s.dev.initialized s
  let u := t.setSeq
    { t.seq with
      scanState := .idle
      scanChip := if Config.freeScanChip t.env.freeCount then .chip1 else .chip0
      scanCol := (Config.freeScanCol t.env.freeCount).val }
  u.setEnv { u.env with freeCount := u.env.freeCount + 1 }

/-- The body of SCAN (R153), without its STATUS write. -/
def scanBody (s : State) : State :=
  endScan (scanChip .chip1 (scanChip .chip0 (beginScan s)))

/-- SCAN (R153): no bus failure is reported. -/
def execScan (s : State) : Host.Outcome State Fault Refusal :=
  .next (complete statusOk [] (scanBody s))

/-! ### The scanner's state machine (R151) -/

/-- Chip entry at a ready chip: SELECT while a column is left, else PARK. -/
def enterReady (c : Chip) (i : Nat) (s : State) : State :=
  if i < s.cfg.colsOf c then scanAt .select c i s else scanAt .park c i s

/-- Chip entry at chip 1, or the end of the scan when it is not ready. -/
def enterChip1 (i : Nat) (s : State) : State :=
  if s.dev.ready .chip1 then enterReady .chip1 i s else endScan s

/-- Chip entry at chip 0, or at chip 1 when it is not ready. -/
def enterChip0 (i : Nat) (s : State) : State :=
  if s.dev.ready .chip0 then enterReady .chip0 i s else enterChip1 0 s

/-- The decision point "chip entry" with `SCAN_CHIP = c` and `SCAN_COL = i`. -/
def chipEntry (c : Chip) (i : Nat) (s : State) : State :=
  match c with
  | .chip0 => enterChip0 i s
  | .chip1 => enterChip1 i s

/-- The decision point after `c <- c + 1; i <- 0`. -/
def nextChipEntry (c : Chip) (s : State) : State :=
  match c with
  | .chip0 => enterChip1 0 s
  | .chip1 => endScan s

/-- One row of the table of R151, from the stored `SCAN_STATE`, `SCAN_CHIP` and `SCAN_COL`. From IDLE it is
the row "SCAN starts". -/
def scanFsmStep (s : State) : State :=
  match s.seq.scanState with
  | .idle => chipEntry .chip0 0 (beginScan s)
  | .select =>
    let w := selectWrite s.seq.scanChip s.seq.scanCol s
    if w.1 then scanAt .settle s.seq.scanChip s.seq.scanCol w.2
    else
      chipEntry s.seq.scanChip (s.seq.scanCol + 1)
        (storeRaw (s.cfg.colIndex s.seq.scanChip s.seq.scanCol) 0x00#8 w.2)
  | .settle => scanAt .sample s.seq.scanChip s.seq.scanCol (waitFor .settle s)
  | .sample =>
    chipEntry s.seq.scanChip (s.seq.scanCol + 1) (sampleStore s.seq.scanChip s.seq.scanCol s)
  | .park => nextChipEntry s.seq.scanChip (parkWrite s.seq.scanChip s)

/-- The state machine run until it is IDLE again, for at most `n + 1` steps. -/
def scanFsmRun : Nat → State → State
  | 0, s => scanFsmStep s
  | n + 1, s =>
    let t := scanFsmStep s
    if t.seq.scanState = .idle then t else scanFsmRun n t

/-! ### Chip initialization -/

/-- The configuration writes of one chip, in list order, ended by the first failure (R160, D10). -/
def configure (c : Chip) : List (Byte × Byte) → State → Bool × State
  | [], s => (true, s)
  | (reg, val) :: rest, s =>
    let w := drvWriteByte c reg val s
    if w.1 then configure c rest w.2 else (false, w.2)

/-- One chip of the loop of R160: configure, park if that succeeded, `READY[c] <- ok`. -/
def initChip (c : Chip) (s : State) : State :=
  let r := configure c s.cfg.cfgSeq s
  let p := if r.1 then drvWriteByte c r.2.cfg.regColOut parkValue r.2 else (false, r.2)
  p.2.setDev (p.2.dev.setReady c p.1)

/-- INIT's writes before its STATUS write (R160). -/
def initBody (s : State) : State :=
  let t := initChip .chip1 (initChip .chip0 (setIrqEn false s))
  setIrqEn true (t.setDev { t.dev with initialized := true })

/-- INIT (R160): RESULT tells which chips are ready; STATUS is OK even when both fail (R282). -/
def execInit (s : State) : Host.Outcome State Fault Refusal :=
  let t := initBody s
  .next (complete statusOk [readyByte t.dev] t)

end Sys2Proof.Machine
end

