-- ==== Sys2Proof/Machine/Pipeline.lean ====
section
/-! DEFINITION. The pipeline controller (spec/46_pipeline_control.md): the pass (R263), the requeue pass
(R262), the send step (R265) and CYCLE (R261). -/

namespace Sys2Proof.Machine

/-- `pass()` (R263). -/
def passBody (s : State) : State :=
  diffBody (filterBody (scanBody s))

/-- `PIPE_PHASE <- ph`. -/
def setPhase (ph : PipePhase) (s : State) : State :=
  s.setSeq { s.seq with pipePhase := ph }

/-- `PASS_COUNT <- n`. -/
def setPassCount (n : Nat) (s : State) : State :=
  s.setSeq { s.seq with passCount := n }

/-- One requeue pass: the inter-cycle delay, `PASS_COUNT <- PASS_COUNT + 1`, a pass (R262). -/
def requeuePass (s : State) : State :=
  let t := waitFor .debounce s
  passBody (setPassCount (t.seq.passCount + 1) t)

/-- The requeue loop while `PENDING = 1`, for at most `n` more passes (R261, R262). -/
def requeueLoop : Nat → State → State
  | 0, s => s
  | n + 1, s => if s.snap.pending then requeueLoop n (requeuePass s) else s

/-- The send step: `transmit()` exactly when `DIRTY = 1`, and the status CYCLE will report (R265). -/
def sendStep (s : State) : Byte × State :=
  if s.report.dirty then
    let a := transmit s
    (if a.1 then statusOk else statusSendRejected, a.2)
  else (statusOk, s)

/-- All passes of one CYCLE (R261). -/
def cyclePasses (s : State) : State :=
  requeueLoop s.cfg.requeuePasses (passBody (setPassCount 0 (setPhase .pass s)))

/-- CYCLE (R261). -/
def execCycle (s : State) : Host.Outcome State Fault Refusal :=
  let r := sendStep (setPhase .send (cyclePasses s))
  .next (complete r.1 [] (setPhase .idle (waitFor .debounce (wakeDecrement (setPhase .finish r.2)))))

end Sys2Proof.Machine
end

