-- ==== Sys2Proof/Machine/Dispatch.lean ====
section
/-! DEFINITION. The meaning of every command: one arm per constructor (spec/30_encoding.md R110). -/

namespace Sys2Proof.Machine

def exec (i : Instr) (s : State) : Host.Outcome State Fault Refusal :=
  match i with
  | .init => Sys2Proof.Machine.execInit s
  | .cycle => Sys2Proof.Machine.execCycle s
  | .scan => Sys2Proof.Machine.execScan s
  | .filter => Sys2Proof.Machine.execFilter s
  | .diff => Sys2Proof.Machine.execDiff s
  | .dispatch pressed row col => Sys2Proof.Machine.execDispatch pressed row col s
  | .addKey kc => Sys2Proof.Machine.execAddKey kc s
  | .removeKey kc => Sys2Proof.Machine.execRemoveKey kc s
  | .isAny => Sys2Proof.Machine.execIsAny s
  | .serialize => Sys2Proof.Machine.execSerialize s
  | .transmit => Sys2Proof.Machine.execTransmit s
  | .writeByte ch reg val => Sys2Proof.Machine.execWriteByte ch reg val s
  | .writeWord ch reg val => Sys2Proof.Machine.execWriteWord ch reg val s
  | .readByte ch reg => Sys2Proof.Machine.execReadByte ch reg s
  | .readWord ch reg => Sys2Proof.Machine.execReadWord ch reg s
  | .rawset col val => Sys2Proof.Machine.execRawset col val s

end Sys2Proof.Machine
end

