-- ==== Sys2Proof/Machine/Port.lean ====
section
/-! DEFINITION. The command port (spec/30_encoding.md R100): how a presented word is taken, decoded and run. -/

namespace Sys2Proof.Machine

/-- The state once the environment's next input is taken. -/
def dropInput (s : State) : State :=
  s.setEnv { s.env with inputs := s.env.inputs.tail }

/-- The block decodes a presented word and runs it to completion; an illegal word only reports
ILLEGAL_COMMAND (R100, R115, R116). -/
def runWord (w : Word) (s : State) : Host.Outcome State Fault Refusal :=
  match decode s.cfg w with
  | .ok i => exec i s
  | .error _ => .next (illegalCommand s)

/-- The word of the low `nbits` bits of `w`, every bit above them 0. -/
def fetchWord (nbits w : Nat) : Word :=
  BitVec.ofNat 32 (w % 2 ^ nbits)

/-- The environment presents this word next, before whatever it was going to do (R100). -/
def present (w : Word) (s : State) : State :=
  s.setEnv { s.env with inputs := .command w :: s.env.inputs }

end Sys2Proof.Machine
end

