-- ==== Sys2Proof/Machine/Step.lean ====
section
/-! DEFINITION. One step of the block: the next thing the environment does (spec/30_encoding.md R100,
spec/46_pipeline_control.md R266, R267). -/

namespace Sys2Proof.Machine

/-- One step: a presented command word, an interrupt edge, or, when the environment does nothing, an idle
step in which "every state element keeps its value" (R297, R311). -/
def step (s : State) : Host.Outcome State Fault Refusal :=
  match s.env.inputs with
  | [] => .next s
  | .command w :: _ => runWord w (dropInput s)
  | .edge :: _ => .next (irqEdge (dropInput s))

/-- The environment presents the word of these bits next (R100). Log 4. -/
def State.withFetchWord (s : State) (nbits w : Nat) : State :=
  present (fetchWord nbits w) s

end Sys2Proof.Machine
end

