-- ==== Sys2Proof/Machine/Assembler.lean ====
section
/-! DEFINITION. The assembler text of spec/30_encoding.md R112 and its pseudo-commands (R113): one line of
characters to the commands it stands for. -/

namespace Sys2Proof.Asm

/-- A line or a part of one. -/
abbrev Text := List Char

/-- The value of a digit in bases up to 16. -/
def digit (c : Char) : Option Nat :=
  let n := c.toNat
  if 48 ≤ n ∧ n ≤ 57 then some (n - 48)
  else if 65 ≤ n ∧ n ≤ 70 then some (n - 55)
  else if 97 ≤ n ∧ n ≤ 102 then some (n - 87)
  else none

/-- The digits of a number read on from `acc`; none when one is no digit of the base. -/
def digitsFrom (base : Nat) : Nat → Text → Option Nat
  | acc, [] => some acc
  | acc, c :: cs =>
    match digit c with
    | some d => if d < base then digitsFrom base (acc * base + d) cs else none
    | none => none

/-- A non-empty run of digits. -/
def digits (base : Nat) (t : Text) : Option Nat :=
  if t.isEmpty then none else digitsFrom base 0 t

/-- "Numbers are decimal, or hexadecimal with `0x`, or binary with `0b`" (R112). -/
def number : Text → Option Nat
  | '0' :: 'x' :: t => digits 16 t
  | '0' :: 'b' :: t => digits 2 t
  | t => digits 10 t

/-- "An assembler refuses an operand that does not fit its field" (R112). -/
def fit (bits : Nat) (n : Nat) : Option (BitVec bits) :=
  if n < 2 ^ bits then some (BitVec.ofNat bits n) else none

/-- A numeric operand of a field's width. -/
def value (bits : Nat) (t : Text) : Option (BitVec bits) :=
  (number t).bind (fit bits)

/-- `rR`, a row operand. -/
def row : Text → Option (BitVec 3)
  | 'r' :: t => (digits 10 t).bind (fit 3)
  | _ => none

/-- `cC`, a column operand. -/
def column : Text → Option (BitVec 4)
  | 'c' :: t => (digits 10 t).bind (fit 4)
  | _ => none

/-- `chip0` or `chip1`. -/
def chip (t : Text) : Option Chip :=
  if t = ['c', 'h', 'i', 'p', '0'] then some .chip0
  else if t = ['c', 'h', 'i', 'p', '1'] then some .chip1
  else none

/-- `press` or `release`. -/
def transition (t : Text) : Option Bool :=
  if t = ['p', 'r', 'e', 's', 's'] then some true
  else if t = ['r', 'e', 'l', 'e', 'a', 's', 'e'] then some false
  else none

/-- Spaces and tabs. -/
def isBlank (c : Char) : Bool :=
  c == ' ' || c == '\t'

/-- A text without the blanks around it. -/
def trim (t : Text) : Text :=
  ((t.dropWhile isBlank).reverse.dropWhile isBlank).reverse

/-- "A line comment starts with `;`" (R112). -/
def dropComment (t : Text) : Text :=
  t.takeWhile fun c => c != ';'

/-- The parts of a text between its commas, `part` being the part begun. -/
def splitFrom (part : Text) : Text → List Text
  | [] => [part]
  | c :: cs => if c = ',' then part :: splitFrom [] cs else splitFrom (part ++ [c]) cs

/-- The operands after the mnemonic, "separated by commas" (R112). -/
def operands (t : Text) : List Text :=
  if (trim t).isEmpty then [] else (splitFrom [] t).map trim

/-- A command of format N. -/
def plain (i : Instr) : List Text → Option Instr
  | [] => some i
  | _ => none

/-- A command of format K. -/
def withKey (f : Byte → Instr) : List Text → Option Instr
  | [a] => (value 8 a).map f
  | _ => none

/-- `DISPATCH rR, cC, press` or `DISPATCH rR, cC, release`. -/
def dispatchOf : List Text → Option Instr
  | [a, b, c] => do
    let r ← row a
    let k ← column b
    let p ← transition c
    some (.dispatch p r k)
  | _ => none

/-- `RAWSET cC, val`. -/
def rawsetOf : List Text → Option Instr
  | [a, b] => do
    let k ← column a
    let v ← value 8 b
    some (.rawset k v)
  | _ => none

/-- A driver write of a value of some width. -/
def writeOf {n : Nat} (f : Chip → Byte → BitVec n → Instr) : List Text → Option Instr
  | [a, b, c] => do
    let h ← chip a
    let g ← value 8 b
    let v ← value n c
    some (f h g v)
  | _ => none

/-- A driver read. -/
def readOf (f : Chip → Byte → Instr) : List Text → Option Instr
  | [a, b] => do
    let h ← chip a
    let g ← value 8 b
    some (f h g)
  | _ => none

/-- The commands of R112, by mnemonic. -/
def command (m : Text) (ops : List Text) : Option Instr :=
  if m = ['I', 'N', 'I', 'T'] then plain .init ops
  else if m = ['C', 'Y', 'C', 'L', 'E'] then plain .cycle ops
  else if m = ['S', 'C', 'A', 'N'] then plain .scan ops
  else if m = ['F', 'I', 'L', 'T', 'E', 'R'] then plain .filter ops
  else if m = ['D', 'I', 'F', 'F'] then plain .diff ops
  else if m = ['D', 'I', 'S', 'P', 'A', 'T', 'C', 'H'] then dispatchOf ops
  else if m = ['A', 'D', 'D', '_', 'K', 'E', 'Y'] then withKey .addKey ops
  else if m = ['R', 'E', 'M', 'O', 'V', 'E', '_', 'K', 'E', 'Y'] then withKey .removeKey ops
  else if m = ['I', 'S', '_', 'A', 'N', 'Y'] then plain .isAny ops
  else if m = ['S', 'E', 'R', 'I', 'A', 'L', 'I', 'Z', 'E'] then plain .serialize ops
  else if m = ['T', 'R', 'A', 'N', 'S', 'M', 'I', 'T'] then plain .transmit ops
  else if m = ['W', 'R', 'I', 'T', 'E', '_', 'B', 'Y', 'T', 'E'] then writeOf .writeByte ops
  else if m = ['W', 'R', 'I', 'T', 'E', '_', 'W', 'O', 'R', 'D'] then writeOf .writeWord ops
  else if m = ['R', 'E', 'A', 'D', '_', 'B', 'Y', 'T', 'E'] then readOf .readByte ops
  else if m = ['R', 'E', 'A', 'D', '_', 'W', 'O', 'R', 'D'] then readOf .readWord ops
  else if m = ['R', 'A', 'W', 'S', 'E', 'T'] then rawsetOf ops
  else none

/-- A row and a column operand. -/
def position (f : BitVec 3 → BitVec 4 → Pseudo) : List Text → Option Pseudo
  | [a, b] => do
    let r ← row a
    let k ← column b
    some (f r k)
  | _ => none

/-- The byte operands of LOADRAW. -/
def byteList : List Text → Option (List Byte)
  | [] => some []
  | a :: rest => do
    let v ← value 8 a
    let vs ← byteList rest
    some (v :: vs)

/-- The pseudo-commands of R113, by mnemonic. -/
def pseudo (m : Text) (ops : List Text) : Option Pseudo :=
  if m = ['P', 'R', 'E', 'S', 'S'] then position .press ops
  else if m = ['R', 'E', 'L', 'E', 'A', 'S', 'E'] then position .release ops
  else if m = ['P', 'A', 'S', 'S'] then (if ops = [] then some .pass else none)
  else if m = ['L', 'O', 'A', 'D', 'R', 'A', 'W'] then (byteList ops).map .loadraw
  else none

/-- The commands of a mnemonic and its operands, before the range checks. -/
def expandLine (p : Params) (m : Text) (ops : List Text) : Option (List Instr) :=
  match command m ops with
  | some i => some [i]
  | none => (pseudo m ops).bind (Pseudo.expand p)

/-- One line of assembler text; a blank line or a comment alone stands for no command. An assembler refuses "a
range check of rule R106 that it can decide from the parameters" (R112). -/
def assemble (p : Params) (line : Text) : Option (List Instr) :=
  let t := trim (dropComment line)
  let m := t.takeWhile fun c => !isBlank c
  if t.isEmpty then some []
  else
  match expandLine p m (operands (t.drop m.length)) with
  | some is => if is.all (Instr.wf p) then some is else none
  | none => none

end Sys2Proof.Asm
end

