-- ==== Sys2Proof/Safety.lean ====
section
/-! DEFINITION. What holds between commands (spec/10_state.md R53) and the shapes the registers have, in the
terms the statements use. -/

namespace Sys2Proof.Machine

/-- A snapshot has `COLS` elements (R18) and no bit at or above ROWS (R53 item 1). -/
structure SnapOk (p : Params) (t : Snapshot) : Prop where
  length_eq : t.length = p.cols
  masked : ∀ v ∈ t, v &&& ~~~ p.rowMask = 0#8

/-- `SLOT[i]`. -/
def Slots.get (t : Slots) (i : Fin 6) : Byte :=
  t.toList.getD i.val 0#8

/-- R53 item 2: behind an empty slot every slot is empty. -/
def Slots.Compact (t : Slots) : Prop :=
  ∀ i j : Fin 6, i < j → t.get i = 0#8 → t.get j = 0#8

/-- The occupied slots, oldest first (R241). -/
def Slots.occupied (t : Slots) : List Byte :=
  t.toList.filter fun k => decide (k ≠ 0#8)

/-- What holds between commands: R53 (but for the age order, which is no property of one state), the
bounds of R10 to R16, and the widths of R32, R45, R46, R47. -/
structure Inv (s : State) : Prop where
  valid : s.cfg.valid = true
  raw_ok : SnapOk s.cfg s.snap.raw
  hist_length : s.snap.hist.length = s.cfg.histLen
  hist_ok : ∀ t ∈ s.snap.hist, SnapOk s.cfg t
  stable_ok : SnapOk s.cfg s.snap.stable
  prev_ok : SnapOk s.cfg s.snap.stablePrev
  compact : s.report.slots.Compact
  layer_lt : s.layer < s.cfg.layers
  scan_idle : s.seq.scanState = .idle
  scan_col : s.seq.scanCol ≤ 8
  pipe_idle : s.seq.pipePhase = .idle
  pass_count : s.seq.passCount ≤ s.cfg.requeuePasses
  status_code : s.port.status.toNat ≤ 3
  result_length : s.port.result.length ≤ 9

/-- A step that stops neither in a fault nor in a refusal: the only kind the block has (R280). -/
def Completes (o : Host.Outcome State Fault Refusal) : Prop :=
  ∃ t, o = .next t

/-- An interrupt event of the trace. -/
def isIrq : Event → Bool
  | .irq _ => true
  | _ => false

/-- The trace without its interrupt events: what the block itself did. -/
def ownTrace (s : State) : List Event :=
  s.trace.filter fun e => !isIrq e

/-- The state without all that an interrupt edge can touch: WAKE and the IRQ entries of the trace (R94), and
the schedule of the edges to come. -/
def eraseIrq (s : State) : State :=
  { s with wake := 0#32, trace := ownTrace s, env := { s.env with edges := [] } }

/-- The parameters and every register but WAKE, STATUS, RESULT and the trace are the same. -/
structure SameBlock (s t : State) : Prop where
  cfg : t.cfg = s.cfg
  snap : t.snap = s.snap
  layer : t.layer = s.layer
  report : t.report = s.report
  dev : t.dev = s.dev
  seq : t.seq = s.seq

/-- The trace only grew, and the block's own new events are these, in this order. With no interrupt edge
scheduled they are the only new ones. -/
def Grows (s t : State) (own : List Event) : Prop :=
  ∃ more, t.trace = s.trace ++ more ∧ more.filter (fun e => !isIrq e) = own ∧ (s.env.edges = [] → more = own)

/-- WAKE moved only as interrupt edges move it (R266): kept with no edge scheduled, else kept or loaded. -/
def WakeMoves (s t : State) : Prop :=
  (s.env.edges = [] → t.wake = s.wake) ∧ (t.wake = s.wake ∨ t.wake = s.cfg.pollReload)

/-- No answer of the environment was taken. -/
def NoAnswerTaken (s t : State) : Prop :=
  t.env.writeAnswers = s.env.writeAnswers ∧ t.env.readAnswers = s.env.readAnswers ∧
    t.env.sendAnswers = s.env.sendAnswers

end Sys2Proof.Machine
end

