-- ==== Sys2Proof/Certificates/Slice0/Obligations.lean ====
section
/-! DEFINITION. The statements for the provers, with the terms they use. -/

open Sys2Proof Sys2Proof.Machine

namespace Sys2Proof.Claims

/-- The (match, mask) pairs of the opcode map (R110). -/
def opTable : List (Word × Word) :=
  [(0x04000000#32, 0xFFFFFFFF#32), (0x08000000#32, 0xFFFFFFFF#32), (0x0C000000#32, 0xFFFFFFFF#32),
   (0x10000000#32, 0xFFFFFFFF#32), (0x14000000#32, 0xFFFFFFFF#32), (0x18000000#32, 0xFFFFFE80#32),
   (0x1C000000#32, 0xFFFFFF00#32), (0x20000000#32, 0xFFFFFF00#32), (0x24000000#32, 0xFFFFFFFF#32),
   (0x28000000#32, 0xFFFFFFFF#32), (0x2C000000#32, 0xFFFFFFFF#32), (0x30000000#32, 0xFE00FF00#32),
   (0x34000000#32, 0xFE000000#32), (0x38000000#32, 0xFE00FFFF#32), (0x3C000000#32, 0xFE00FFFF#32),
   (0x40000000#32, 0xFFFFF000#32)]

/-- "A word matches a row when `(word & mask) == match`" (R110). -/
def matchesRow (w : Word) (r : Word × Word) : Bool :=
  decide (w &&& r.2 = r.1)

/-- The word decodes to no command. -/
def Illegal (p : Params) (w : Word) : Prop :=
  ∀ i, decode p w ≠ .ok i

/-- The state once the environment's first input is gone. -/
def withInputs (s : State) (rest : List Input) : State :=
  s.setEnv { s.env with inputs := rest }

/-- Bit `r` of column `c` of a snapshot (R85). -/
def bitAt (t : Snapshot) (c r : Nat) : Bool :=
  (snapAt t c).getLsbD r

/-- One filter step on a raw snapshot. -/
def feedStep (p : Params) (r : SnapRegs) (x : Snapshot) : SnapRegs :=
  filterRegs p { r with raw := x }

/-- Filter steps on raw snapshots, the first first. -/
def feed (p : Params) (r : SnapRegs) (xs : List Snapshot) : SnapRegs :=
  xs.foldl (feedStep p) r

/-- The events of one column whose bus writes succeed (R153). -/
def columnTrace (p : Params) (c : Chip) (i : Nat) (a : ReadAnswer) : List Event :=
  [.busW (p.chipAddr c) [p.regColOut, ~~~ (1#8 <<< i)] 0#8, .wait .settle,
   .busW (p.chipAddr c) [p.regRowIn] 0#8, .busR (p.chipAddr c) 1 [a.low] a.status]

/-- The events of one ready chip's scan whose column writes succeed: its columns, then its park write, answered
`park` (R153). -/
def chipTraceParked (p : Params) (c : Chip) (as : List ReadAnswer) (park : Byte) : List Event :=
  as.zipIdx.flatMap (fun e => columnTrace p c e.2 e.1) ++
    [.busW (p.chipAddr c) [p.regColOut, 0x00#8] park]

/-- The events of one ready chip's scan whose bus writes all succeed (R153). -/
def chipTrace (p : Params) (c : Chip) (as : List ReadAnswer) : List Event :=
  chipTraceParked p c as 0#8

/-- What a column stores of a read's answer (R155). -/
def sampled (p : Params) (a : ReadAnswer) : Byte :=
  if a.status = 0#8 then a.low &&& p.rowMask else 0x00#8

/-- One chip's part of RAW: its samples, or zeros when it is not ready (R158). -/
def chipRaw (p : Params) (c : Chip) (ready : Bool) (as : List ReadAnswer) : Snapshot :=
  if ready then as.map (sampled p) else List.replicate (p.colsOf c) 0#8

/-- The read answers a chip's scan takes: one a column when it is ready. -/
def readsOf (p : Params) (c : Chip) (ready : Bool) : Nat :=
  if ready then p.colsOf c else 0

/-- The register writes of one chip's initialization: the configuration, then the park write (R160). -/
def initWrites (p : Params) : List (Byte × Byte) :=
  p.cfgSeq ++ [(p.regColOut, 0x00#8)]

/-- A successful register write of a chip as a trace event. -/
def okWrite (p : Params) (c : Chip) (w : Byte × Byte) : Event :=
  .busW (p.chipAddr c) [w.1, w.2] 0#8

/-- One chip's initialization whose write number `n`, counted from 0, is answered `st` and ends it (R160). -/
def failedInit (p : Params) (c : Chip) (n : Nat) (st : Byte) : List Event :=
  ((initWrites p).take n).map (okWrite p c) ++
    [.busW (p.chipAddr c) [((initWrites p).getD n (0#8, 0#8)).1, ((initWrites p).getD n (0#8, 0#8)).2] st]

/-- A bus event of the trace. -/
def isBus : Event → Bool
  | .busW _ _ _ => true
  | .busR _ _ _ _ => true
  | _ => false

/-- A KEY event of the trace. -/
def isKey : Event → Bool
  | .key _ _ _ => true
  | _ => false

/-- A SEND event of the trace. -/
def isSend : Event → Bool
  | .send _ _ => true
  | _ => false

/-- The KEY event that records a Key Event (R202). -/
def keyEvent (e : KeyEvent) : Event :=
  .key e.row e.col e.pressed

/-- The DISPATCH command of a Key Event (R215). -/
def dispatchOf (e : KeyEvent) : Instr :=
  .dispatch e.pressed (BitVec.ofNat 3 e.row) (BitVec.ofNat 4 e.col)

/-- The command run on a next state; a stop stays a stop. -/
def andThen (o : Host.Outcome State Fault Refusal) (i : Instr) : Host.Outcome State Fault Refusal :=
  match o with
  | .next u => exec i u
  | x => x

/-- Each Key Event recorded and then dispatched by the DISPATCH command, the first first (R202). -/
def recordAndDispatch (es : List KeyEvent) (s : State) : Host.Outcome State Fault Refusal :=
  es.foldl (fun o e => match o with | .next u => exec (dispatchOf e) (emit (keyEvent e) u) | x => x) (.next s)

/-- Each Key Event dispatched by the DISPATCH command, the first first, none recorded. -/
def dispatchAll (es : List KeyEvent) (s : State) : Host.Outcome State Fault Refusal :=
  (es.map dispatchOf).foldl andThen (.next s)

/-- The entry is the first of the function-key table at the position (R217). -/
def FirstEntry (p : Params) (row col : Nat) (e : FkEntry) : Prop :=
  ∃ before after : List FkEntry, p.fkt = before ++ e :: after ∧ e.row = row ∧ e.col = col ∧
    ∀ x ∈ before, ¬ (x.row = row ∧ x.col = col)

/-- No entry of the function-key table is at the position. -/
def NoEntry (p : Params) (row col : Nat) : Prop :=
  ∀ x ∈ p.fkt, ¬ (x.row = row ∧ x.col = col)

/-- The non-zero keycodes of a position, by ascending layer (R222). -/
def codesOf (p : Params) (row col : Nat) : List Byte :=
  ((List.range p.layers).map fun l => p.keymapAt l row col).filter fun k => decide (k ≠ 0#8)

/-- The report as it goes to the host (R86). -/
def reportBytes (p : Params) (r : Report) : List Byte :=
  p.reportId :: r.mods :: 0x00#8 :: r.slots.toList

/-- The SEND event of a report, when it is dirty, and no event otherwise (R265). -/
def sentIfDirty (p : Params) (c : State) : List Event :=
  if c.report.dirty then [.send (reportBytes p c.report) c.env.nextAccepted] else []

/-- The inter-cycle wait and one more pass (R261). -/
def againPass (s : State) : State :=
  passBody (setPassCount ((waitFor .debounce s).seq.passCount + 1) (waitFor .debounce s))

/-- The first interleaving point of a command is passed by `n` edges: what becomes of them (R266). -/
def edgeEvents (s : State) (n : Nat) : List Event :=
  List.replicate n (.irq (if s.dev.irqEn then .taken else .dropped))

/-- WAKE after those edges (R266). -/
def wakeAfter (s : State) (n : Nat) : Word :=
  if s.dev.irqEn = true ∧ n ≠ 0 then s.cfg.pollReload else s.wake

/-- The number of set bits of a byte. -/
def popCount (v : Byte) : Nat :=
  (List.range 8).countP fun r => v.getLsbD r

/-- Events in the order of R200: by column, then by row. -/
def Before (a b : KeyEvent) : Prop :=
  a.col < b.col ∨ (a.col = b.col ∧ a.row < b.row)

/-- The report holds no key (R244). -/
def EmptyReport (r : Report) : Prop :=
  r.mods = 0x00#8 ∧ ∀ i : Fin 6, r.slots.get i = 0x00#8

/-- MODS and the slots are the same in both. -/
def SameKeys (a b : Report) : Prop :=
  b.mods = a.mods ∧ b.slots = a.slots

/-- The commands that write RAW (R52). -/
def writesRaw : Instr → Bool
  | .scan | .cycle | .rawset _ _ => true
  | _ => false

/-- The commands that write HIST, STABLE and PENDING (R52). -/
def writesFilter : Instr → Bool
  | .filter | .cycle => true
  | _ => false

/-- The commands that dispatch key events and so write LAYER (R52). -/
def dispatches : Instr → Bool
  | .dispatch _ _ _ | .diff | .cycle => true
  | _ => false

/-- The commands that write MODS and the slots (R52). -/
def writesKeys : Instr → Bool
  | .addKey _ | .removeKey _ | .dispatch _ _ _ | .diff | .cycle => true
  | _ => false

/-- The commands that attempt a transmission and so write LAST_SEND_OK (R52). -/
def sends : Instr → Bool
  | .transmit | .cycle => true
  | _ => false

/-- The driver commands (R130). -/
def isDriver : Instr → Bool
  | .writeByte _ _ _ | .writeWord _ _ _ | .readByte _ _ | .readWord _ _ => true
  | _ => false

end Sys2Proof.Claims

open Sys2Proof.Claims

/-! ### Encoding (30_encoding.md) -/

/-- R114, R115: decoding the word of a command in range gives the command back, every operand at every value
its field admits. -/
def Obligations.DecodeInvertsEncode : Prop :=
  ∀ (p : Params) (i : Instr), i.wf p = true → decode p (encode i) = .ok i

/-- R115: a legal word is the word of the command it decodes to, so no bit of it is dropped, and that command
is in range. -/
def Obligations.EncodeInvertsDecode : Prop :=
  ∀ (p : Params) (w : Word) (i : Instr), decode p w = .ok i → i.wf p = true ∧ encode i = w

/-- Words written out from the bit pictures of R102 to R108 decode to the commands they stand for. -/
def Obligations.WrittenWordsDecode : Prop :=
  decode Config.resetParams 0x04000000#32 = .ok .init ∧
    decode Config.resetParams 0x18000111#32 = .ok (.dispatch true 1#3 1#4) ∧
    decode Config.resetParams 0x1C0000E1#32 = .ok (.addKey 0xE1#8) ∧
    decode Config.resetParams 0x311200FE#32 = .ok (.writeByte .chip1 0x12#8 0xFE#8) ∧
    decode Config.resetParams 0x35FFABCD#32 = .ok (.writeWord .chip1 0xFF#8 0xABCD#16) ∧
    decode Config.resetParams 0x40000103#32 = .ok (.rawset 1#4 0x03#8)

/-- R110: at most one row of the opcode map matches any word, and a legal word matches one. -/
def Obligations.OneRowMatches : Prop :=
  ∀ (p : Params) (w : Word),
    (opTable.filter (matchesRow w)).length ≤ 1 ∧
      (∀ i, decode p w = .ok i → ∃ r ∈ opTable, matchesRow w r = true)

/-- R111: an unassigned opcode is illegal, a word no row matches is illegal (so one with a reserved bit set
is), and an illegal word presented to the block has the one behaviour of R116. -/
def Obligations.WordsOutsideTheTableAreIllegal : Prop :=
  ∀ (p : Params) (w : Word),
    ((opField w).toNat = 0 ∨ 0x11 ≤ (opField w).toNat → Illegal p w) ∧
      ((∀ r ∈ opTable, matchesRow w r = false) → Illegal p w) ∧
      (w.getLsbD 25 = true → Illegal p w) ∧
      (Illegal p w → ∀ (s : State) (rest : List Input), s.cfg = p → s.env.inputs = .command w :: rest →
        step s = .next ((withInputs s rest).setPort ⟨0x01#8, []⟩))

/-- R106: exactly the out-of-range DISPATCH and RAWSET words are illegal among the words of commands; with no
column, all of them are. -/
def Obligations.RangeChecksAtDecode : Prop :=
  ∀ p : Params,
    (∀ (b : Bool) (r : BitVec 3) (c : BitVec 4),
      Illegal p (encode (.dispatch b r c)) ↔ (p.rows ≤ r.toNat ∨ p.cols ≤ c.toNat)) ∧
    (∀ (c : BitVec 4) (v : Byte),
      Illegal p (encode (.rawset c v)) ↔ (p.cols ≤ c.toNat ∨ v &&& ~~~ p.rowMask ≠ 0#8)) ∧
    (∀ i : Instr, (∀ b r c, i ≠ .dispatch b r c) → (∀ c v, i ≠ .rawset c v) → decode p (encode i) = .ok i) ∧
    (p.cols = 0 →
      (∀ b r c, Illegal p (encode (.dispatch b r c))) ∧ (∀ c v, Illegal p (encode (.rawset c v))))

/-! ### The step, reset and whole-machine rules -/

/-- R100: a presented word that decodes to a command runs that command, on the state with the word
taken (the list of inputs is the model's form of the command port, log 4). -/
def Obligations.StepRunsThePresentedCommand : Prop :=
  ∀ (s : State) (w : Word) (rest : List Input) (i : Instr),
    s.env.inputs = .command w :: rest → decode s.cfg w = .ok i → step s = exec i (withInputs s rest)

/-- R266: an interrupt edge between commands loads WAKE and is recorded as taken, or is dropped; nothing else
changes (R289). -/
def Obligations.InterruptEdgeEffect : Prop :=
  ∀ (s : State) (rest : List Input), s.env.inputs = .edge :: rest →
    (s.dev.irqEn = true →
      step s = .next (((withInputs s rest).setWake s.cfg.pollReload).setTrace (s.trace ++ [.irq .taken]))) ∧
    (s.dev.irqEn = false → step s = .next ((withInputs s rest).setTrace (s.trace ++ [.irq .dropped])))

/-- R297: between commands the block is idle and every state element keeps its value (that an empty list of inputs
stands for "no word is presented" is the model's choice, log 4). -/
def Obligations.IdleStepKeepsState : Prop :=
  ∀ s : State, s.env.inputs = [] → step s = .next s

/-- R310: after reset every register holds the reset value of its rule, for every parameter set. -/
def Obligations.ResetValues : Prop :=
  ∀ p : Params,
    let s := State.resetWith p
    s.cfg = p ∧ s.snap.raw = p.zeroSnap ∧ s.snap.hist = List.replicate p.histLen p.zeroSnap ∧
      s.snap.stable = p.zeroSnap ∧ s.snap.stablePrev = p.zeroSnap ∧ s.snap.pending = false ∧
      s.layer = 0 ∧ s.report.mods = 0x00#8 ∧ (∀ i : Fin 6, s.report.slots.get i = 0x00#8) ∧
      s.report.dirty = false ∧ s.report.lastSendOk = true ∧ s.dev.ready0 = false ∧ s.dev.ready1 = false ∧
      s.dev.initialized = false ∧ s.dev.irqEn = false ∧ s.wake = 0#32 ∧ s.port.status = 0x00#8 ∧
      s.port.result = [] ∧ s.seq.scanState = .idle ∧ s.seq.scanChip = .chip0 ∧ s.seq.scanCol = 0 ∧
      s.seq.pipePhase = .idle ∧ s.seq.passCount = 0 ∧ s.trace = []

/-- R280, R49, R50: no error stops the block: every step answers a next state, the trace only grows, and no
parameter changes. -/
def Obligations.EveryStepCompletes : Prop :=
  ∀ s : State, ∃ t more, step s = .next t ∧ t.trace = s.trace ++ more ∧ t.cfg = s.cfg

/-- R53 at reset: for valid parameters, whatever the environment will do, the reset state meets the
invariant; State.reset is the reset state of the parameters log 2 names (the model's choice), which are valid. -/
def Obligations.ResetMeetsInvariant : Prop :=
  (∀ (p : Params) (e : Env), p.valid = true → Inv ((State.resetWith p).setEnv e)) ∧
    State.reset = State.resetWith Config.resetParams ∧ Inv State.reset

/-- R53: what holds between commands is kept by every step, whatever the environment does. -/
def Obligations.EveryStepKeepsInvariant : Prop :=
  ∀ s t : State, Inv s → step s = .next t → Inv t

/-- R94: where interrupt edges fall never changes any state element other than WAKE, nor the block's own
trace: a command run with any edges and from any WAKE ends as it does with none (where inside a command an edge
can fall is the model's reading of R94, log 5). -/
def Obligations.EdgesReachOnlyWakeAndTrace : Prop :=
  ∀ (i : Instr) (s : State), ∃ t u,
    exec i s = .next t ∧ exec i (eraseIrq s) = .next u ∧ eraseIrq t = eraseIrq u

/-- R281, R286: the status codes each command can report. The last clause, `exec` on a command out of range, is the
model's choice of log 7: R286 speaks of decode. -/
def Obligations.StatusCodesByCommand : Prop :=
  ∀ (i : Instr) (s : State), ∃ t, exec i s = .next t ∧
    (isDriver i = true → t.port.status = 0x00#8 ∨ (t.port.status = 0x02#8 ∧ t.port.result = [])) ∧
    (sends i = true → t.port.status = 0x00#8 ∨ (t.port.status = 0x03#8 ∧ t.port.result = [])) ∧
    (isDriver i = false → sends i = false → i.wf s.cfg = true → t.port.status = 0x00#8) ∧
    (i.wf s.cfg = false → t.port = ⟨0x01#8, []⟩)

/-- R52: each register is written by no command but those the table names (CYCLE runs SCAN, FILTER, DIFF and a
transmission). -/
def Obligations.OnlyTheNamedCommandsWrite : Prop :=
  ∀ (i : Instr) (s : State), ∃ t, exec i s = .next t ∧
    (writesRaw i = false → t.snap.raw = s.snap.raw) ∧
    (writesFilter i = false →
      t.snap.hist = s.snap.hist ∧ t.snap.stable = s.snap.stable ∧ t.snap.pending = s.snap.pending) ∧
    (i ≠ .diff → i ≠ .cycle → t.snap.stablePrev = s.snap.stablePrev) ∧
    (dispatches i = false → t.layer = s.layer) ∧
    (writesKeys i = false → SameKeys s.report t.report) ∧
    (writesKeys i = false → sends i = false → t.report.dirty = s.report.dirty) ∧
    (sends i = false → t.report.lastSendOk = s.report.lastSendOk) ∧
    (i ≠ .init →
      t.dev.ready0 = s.dev.ready0 ∧ t.dev.ready1 = s.dev.ready1 ∧ t.dev.initialized = s.dev.initialized) ∧
    (i ≠ .init → i ≠ .scan → i ≠ .cycle → t.dev.irqEn = s.dev.irqEn) ∧
    (i ≠ .cycle → WakeMoves s t) ∧
    (i ≠ .scan → i ≠ .cycle → t.seq = s.seq)

/-! ### Expander driver (40_expander_driver.md) -/

/-- R131: one bus write of the register number and the byte, whatever READY holds; BUS_ERROR on a non-zero
status; no block register changes. -/
def Obligations.WriteByteResult : Prop :=
  ∀ (ch : Chip) (reg val : Byte) (s : State),
    (opField (encode (.writeByte ch reg val)) = 0x0C#6 ∧ fieldChip (encode (.writeByte ch reg val)) = ch ∧
      fieldReg (encode (.writeByte ch reg val)) = reg ∧ fieldByte (encode (.writeByte ch reg val)) = val) ∧
    ∃ t, exec (.writeByte ch reg val) s = .next t ∧ SameBlock s t ∧ WakeMoves s t ∧
      Grows s t [.busW (s.cfg.chipAddr ch) [reg, val] s.env.nextStatus] ∧
      t.env.writeAnswers = s.env.writeAnswers.tail ∧ t.env.readAnswers = s.env.readAnswers ∧
      t.port = (if s.env.nextStatus = 0#8 then ⟨0x00#8, []⟩ else ⟨0x02#8, []⟩)

/-- R132, R87: one bus write of the register number, the low byte and the high byte; BUS_ERROR on a non-zero
status; no block register changes. -/
def Obligations.WriteWordResult : Prop :=
  ∀ (ch : Chip) (reg : Byte) (val : Half) (s : State),
    (opField (encode (.writeWord ch reg val)) = 0x0D#6 ∧ fieldChip (encode (.writeWord ch reg val)) = ch ∧
      fieldReg (encode (.writeWord ch reg val)) = reg ∧ fieldHalf (encode (.writeWord ch reg val)) = val) ∧
    ∃ t, exec (.writeWord ch reg val) s = .next t ∧ SameBlock s t ∧ WakeMoves s t ∧
      Grows s t
        [.busW (s.cfg.chipAddr ch) [reg, val.extractLsb' 0 8, val.extractLsb' 8 8] s.env.nextStatus] ∧
      t.env.writeAnswers = s.env.writeAnswers.tail ∧ t.env.readAnswers = s.env.readAnswers ∧
      t.port = (if s.env.nextStatus = 0#8 then ⟨0x00#8, []⟩ else ⟨0x02#8, []⟩)

/-- R133: a register-select write and then, if it succeeded, a one-byte read; the byte as read (no row mask),
or BUS_ERROR with an empty RESULT. -/
def Obligations.ReadByteResult : Prop :=
  ∀ (ch : Chip) (reg : Byte) (s : State),
    (opField (encode (.readByte ch reg)) = 0x0E#6 ∧ fieldChip (encode (.readByte ch reg)) = ch ∧
      fieldReg (encode (.readByte ch reg)) = reg ∧ fieldByte (encode (.readByte ch reg)) = 0#8) ∧
    ∃ t, exec (.readByte ch reg) s = .next t ∧ SameBlock s t ∧ WakeMoves s t ∧
      t.env.writeAnswers = s.env.writeAnswers.tail ∧
      (s.env.nextStatus ≠ 0#8 →
        Grows s t [.busW (s.cfg.chipAddr ch) [reg] s.env.nextStatus] ∧
          t.env.readAnswers = s.env.readAnswers ∧ t.port = ⟨0x02#8, []⟩) ∧
      (s.env.nextStatus = 0#8 →
        let a := s.env.dropStatus.nextRead
        Grows s t [.busW (s.cfg.chipAddr ch) [reg] 0#8, .busR (s.cfg.chipAddr ch) 1 [a.low] a.status] ∧
          t.env.readAnswers = s.env.readAnswers.tail ∧
          t.port = (if a.status = 0#8 then ⟨0x00#8, [a.low]⟩ else ⟨0x02#8, []⟩))

/-- R134, R87: a register-select write and then, if it succeeded, a two-byte read, the low byte first; or
BUS_ERROR with an empty RESULT. -/
def Obligations.ReadWordResult : Prop :=
  ∀ (ch : Chip) (reg : Byte) (s : State),
    (opField (encode (.readWord ch reg)) = 0x0F#6 ∧ fieldChip (encode (.readWord ch reg)) = ch ∧
      fieldReg (encode (.readWord ch reg)) = reg ∧ fieldHalf (encode (.readWord ch reg)) = 0#16) ∧
    ∃ t, exec (.readWord ch reg) s = .next t ∧ SameBlock s t ∧ WakeMoves s t ∧
      t.env.writeAnswers = s.env.writeAnswers.tail ∧
      (s.env.nextStatus ≠ 0#8 →
        Grows s t [.busW (s.cfg.chipAddr ch) [reg] s.env.nextStatus] ∧
          t.env.readAnswers = s.env.readAnswers ∧ t.port = ⟨0x02#8, []⟩) ∧
      (s.env.nextStatus = 0#8 →
        let a := s.env.dropStatus.nextRead
        Grows s t
            [.busW (s.cfg.chipAddr ch) [reg] 0#8, .busR (s.cfg.chipAddr ch) 2 [a.low, a.high] a.status] ∧
          t.env.readAnswers = s.env.readAnswers.tail ∧
          t.port = (if a.status = 0#8 then ⟨0x00#8, [a.low, a.high]⟩ else ⟨0x02#8, []⟩))

/-! ### Scanner and initialization (41_matrix_scanner.md) -/

/-- R154: the select byte of column `i` is all high except bit `i`; it is what the select write drives on the
chip's column port; and in a SCAN from any state every two-byte write is a select of one of that chip's own columns
or a park write, so that column bits at or above COLS_PER_CHIP[c] are driven high by every select. -/
def Obligations.ColumnSelectIsActiveLow : Prop :=
  (∀ i b : Nat, i < 8 → b < 8 → (colSelect i).getLsbD b = decide (b ≠ i)) ∧
    colSelect 0 = 0xFE#8 ∧ colSelect 3 = 0xF7#8 ∧ colSelect 7 = 0x7F#8 ∧
    (∀ (c : Chip) (i : Nat) (s : State),
      Grows s (selectWrite c i s).2
        [.busW (s.cfg.chipAddr c) [s.cfg.regColOut, 0xFF#8 ^^^ (1#8 <<< i)] s.env.nextStatus]) ∧
    ∀ s : State, ∃ t more, exec .scan s = .next t ∧ t.trace = s.trace ++ more ∧
      ∀ (a : BusAddr) (reg val st : Byte), Event.busW a [reg, val] st ∈ more →
        ∃ c : Chip, a = s.cfg.chipAddr c ∧ reg = s.cfg.regColOut ∧
          (val = 0x00#8 ∨ ∃ i, i < s.cfg.colsOf c ∧ val = 0xFF#8 ^^^ (1#8 <<< i))

/-- R153, R157: what SCAN writes and what it leaves alone, from any state: a full masked RAW, the interrupt
enabled again exactly when INIT has run, STATUS OK; no other block register. -/
def Obligations.ScanWritesOnlyRawAndBracket : Prop :=
  ∀ s : State, ∃ t, exec .scan s = .next t ∧ t.cfg = s.cfg ∧ SnapOk s.cfg t.snap.raw ∧
    t.snap = { s.snap with raw := t.snap.raw } ∧ t.layer = s.layer ∧ t.report = s.report ∧
    t.dev = { s.dev with irqEn := s.dev.initialized } ∧ WakeMoves s t ∧ t.port = ⟨0x00#8, []⟩ ∧
    t.seq.scanState = .idle ∧ t.seq.pipePhase = s.seq.pipePhase ∧ t.seq.passCount = s.seq.passCount ∧
    t.env.inputs = s.env.inputs ∧ t.env.sendAnswers = s.env.sendAnswers

/-- R153, R155, R158, R161: with every bus write answered 0, SCAN visits the ready chips in order and each
one's columns in ascending order (select, settle wait, register select, read), parks it, stores each answer
under ROW_MASK or 0x00 for a failed read, and leaves a not-ready chip's columns 0x00 with no bus call. -/
def Obligations.ScanSamplesReadyChipsInOrder : Prop :=
  ∀ s : State, (∀ a ∈ s.env.writeAnswers, a = 0#8) → 2 * s.cfg.cols + 2 ≤ s.env.writeAnswers.length →
    s.cfg.cols ≤ s.env.readAnswers.length →
    let n0 := readsOf s.cfg .chip0 s.dev.ready0
    let n1 := readsOf s.cfg .chip1 s.dev.ready1
    let a0 := s.env.readAnswers.take n0
    let a1 := (s.env.readAnswers.drop n0).take n1
    ∃ t, exec .scan s = .next t ∧
      t.snap.raw = chipRaw s.cfg .chip0 s.dev.ready0 a0 ++ chipRaw s.cfg .chip1 s.dev.ready1 a1 ∧
      Grows s t
        ((if s.dev.ready0 then chipTrace s.cfg .chip0 a0 else []) ++
          (if s.dev.ready1 then chipTrace s.cfg .chip1 a1 else [])) ∧
      t.env.readAnswers = s.env.readAnswers.drop (n0 + n1)

/-- R283, R155: a failed select write, register-select write or read zeroes its column and nothing else: the
later bus calls of that column are not made, READY keeps its value. -/
def Obligations.FailedBusCallZeroesItsColumn : Prop :=
  ∀ (c : Chip) (i : Nat) (s : State),
    let t := scanColumn c s i
    let select := Event.busW (s.cfg.chipAddr c) [s.cfg.regColOut, ~~~ (1#8 <<< i)]
    let regSelect := Event.busW (s.cfg.chipAddr c) [s.cfg.regRowIn]
    let zeroed := { s.snap with raw := s.snap.raw.set (s.cfg.colOffset c + i) 0x00#8 }
    t.dev = s.dev ∧
      (s.env.nextStatus ≠ 0#8 → t.snap = zeroed ∧ Grows s t [select s.env.nextStatus]) ∧
      (s.env.nextStatus = 0#8 → s.env.dropStatus.nextStatus ≠ 0#8 →
        t.snap = zeroed ∧ Grows s t [select 0#8, .wait .settle, regSelect s.env.dropStatus.nextStatus]) ∧
      (s.env.nextStatus = 0#8 → s.env.dropStatus.nextStatus = 0#8 →
        s.env.dropStatus.dropStatus.nextRead.status ≠ 0#8 → t.snap = zeroed)

/-- R156, R283: a park write of a SCAN that fails is ignored: with both chips ready and every other bus write answered
0, the scan goes on with chip 1, and RAW, READY and the other events are as if it had succeeded. -/
def Obligations.FailedParkWriteIsIgnored : Prop :=
  ∀ (s : State) (park0 park1 : Byte) (rest : List Byte), s.dev.ready0 = true → s.dev.ready1 = true →
    s.env.writeAnswers =
      List.replicate (2 * s.cfg.colsOf .chip0) 0#8 ++ park0 ::
        (List.replicate (2 * s.cfg.colsOf .chip1) 0#8 ++ park1 :: rest) →
    s.cfg.cols ≤ s.env.readAnswers.length →
    let a0 := s.env.readAnswers.take (s.cfg.colsOf .chip0)
    let a1 := (s.env.readAnswers.drop (s.cfg.colsOf .chip0)).take (s.cfg.colsOf .chip1)
    ∃ t, exec .scan s = .next t ∧
      t.snap.raw = a0.map (sampled s.cfg) ++ a1.map (sampled s.cfg) ∧
      t.dev = { s.dev with irqEn := s.dev.initialized } ∧ t.env.writeAnswers = rest ∧ t.port = ⟨0x00#8, []⟩ ∧
      Grows s t (chipTraceParked s.cfg .chip0 a0 park0 ++ chipTraceParked s.cfg .chip1 a1 park1)

/-- R157, R160, R266: SCAN and INIT disable the interrupt first: unless an edge falls before that write with the
interrupt enabled, no edge that falls during the command is taken, and WAKE keeps its value (where an edge can fall
is log 5's reading of R94). -/
def Obligations.ScanTakesNoEdge : Prop :=
  ∀ (i : Instr) (s : State), i = .scan ∨ i = .init → s.dev.irqEn = false ∨ s.env.edges.headD 0 = 0 →
    ∃ t more, exec i s = .next t ∧ t.trace = s.trace ++ more ∧ (∀ e ∈ more, e ≠ .irq .taken) ∧
      t.wake = s.wake

/-- R94, R266: edges that fall inside a command take effect there. At the first place of the command they are all
taken (WAKE is loaded) or all dropped, by IRQ_EN. TRANSMIT and the driver writes have that one place, just before
their event. SCAN and INIT have it before `IRQ_EN <- 0`, and take no later edge. In a CYCLE with no later edge the
wake decrement follows. (The schedule of edges and its places are the model's reading of R94, log 5.) -/
def Obligations.EdgeInsideACommandTakesEffect : Prop :=
  ∀ (s : State) (n : Nat) (rest : List Nat), s.env.edges = n :: rest →
    (∃ t, exec .transmit s = .next t ∧ t.wake = wakeAfter s n ∧ t.env.edges = rest ∧
      t.trace = s.trace ++ edgeEvents s n ++ [.send (reportBytes s.cfg s.report) s.env.nextAccepted]) ∧
    (∀ (ch : Chip) (reg val : Byte), ∃ t, exec (.writeByte ch reg val) s = .next t ∧ t.wake = wakeAfter s n ∧
      t.env.edges = rest ∧
      t.trace = s.trace ++ edgeEvents s n ++ [.busW (s.cfg.chipAddr ch) [reg, val] s.env.nextStatus]) ∧
    (∀ (ch : Chip) (reg : Byte) (val : Half), ∃ t, exec (.writeWord ch reg val) s = .next t ∧
      t.wake = wakeAfter s n ∧ t.env.edges = rest ∧
      t.trace = s.trace ++ edgeEvents s n ++
        [.busW (s.cfg.chipAddr ch) [reg, val.extractLsb' 0 8, val.extractLsb' 8 8] s.env.nextStatus]) ∧
    (∀ i : Instr, i = .scan ∨ i = .init → ∃ t more, exec i s = .next t ∧ t.wake = wakeAfter s n ∧
      t.trace = s.trace ++ edgeEvents s n ++ more ∧ ∀ e ∈ more, e ≠ .irq .taken) ∧
    (rest = [] → ∃ t more, exec .cycle s = .next t ∧ t.trace = s.trace ++ edgeEvents s n ++ more ∧
      t.wake = (if wakeAfter s n = 0#32 then 0#32 else wakeAfter s n - 1#32))

/-- R151, R153: the scanner's state machine, run from IDLE until it is IDLE again, does exactly what the
pseudocode of SCAN does, whatever the environment answers and wherever edges fall. -/
def Obligations.ScannerMachineRunsTheScan : Prop :=
  ∀ s : State, s.seq.scanState = .idle → scanFsmRun 51 s = scanBody s

/-- R160, R282: what INIT leaves from any state: INITIALIZED and IRQ_EN set, RESULT the two READY flags,
STATUS OK whatever fails; snapshots, LAYER and report untouched. -/
def Obligations.InitResult : Prop :=
  ∀ s : State, ∃ t, exec .init s = .next t ∧ t.cfg = s.cfg ∧ t.snap = s.snap ∧ t.layer = s.layer ∧
    t.report = s.report ∧ t.seq = s.seq ∧ WakeMoves s t ∧ t.dev.initialized = true ∧ t.dev.irqEn = true ∧
    t.port = ⟨0x00#8,
      [BitVec.ofNat 8 ((if t.dev.ready0 then 1 else 0) + (if t.dev.ready1 then 2 else 0))]⟩

/-- R160: with every write answered 0, INIT writes the configuration sequence and the park byte to chip 0 and
then to chip 1, and both are ready. -/
def Obligations.InitConfiguresBothChips : Prop :=
  ∀ s : State, (∀ a ∈ s.env.writeAnswers, a = 0#8) →
    2 * (s.cfg.cfgSeq.length + 1) ≤ s.env.writeAnswers.length →
    ∃ t, exec .init s = .next t ∧ t.dev = ⟨true, true, true, true⟩ ∧ t.port = ⟨0x00#8, [0x03#8]⟩ ∧
      Grows s t ((initWrites s.cfg).map (okWrite s.cfg .chip0) ++ (initWrites s.cfg).map (okWrite s.cfg .chip1))

/-- R160 (its D10), R282: a chip's initialization stops at its first failed write, the park write included, and
leaves that chip not ready and the other chip's flag alone. INIT then goes on: whichever write of chip 0 fails, chip 1
is configured and parked as ever (READY 0 and 1), and a failure of chip 1 leaves chip 0 ready. -/
def Obligations.InitStopsAtFirstFailure : Prop :=
  (∀ (c : Chip) (s : State) (n : Nat) (st : Byte) (rest : List Byte),
    n ≤ s.cfg.cfgSeq.length → st ≠ 0#8 → s.env.writeAnswers = List.replicate n 0#8 ++ st :: rest →
    let t := initChip c s
    t.dev = s.dev.setReady c false ∧ t.env.writeAnswers = rest ∧ Grows s t (failedInit s.cfg c n st)) ∧
  ∀ (s : State) (n : Nat) (st : Byte) (rest : List Byte), n ≤ s.cfg.cfgSeq.length → st ≠ 0#8 →
    (s.env.writeAnswers =
        List.replicate n 0#8 ++ st :: (List.replicate (s.cfg.cfgSeq.length + 1) 0#8 ++ rest) →
      ∃ t, exec .init s = .next t ∧ t.dev = ⟨false, true, true, true⟩ ∧ t.port = ⟨0x00#8, [0x02#8]⟩ ∧
        t.env.writeAnswers = rest ∧
        Grows s t (failedInit s.cfg .chip0 n st ++ (initWrites s.cfg).map (okWrite s.cfg .chip1))) ∧
    (s.env.writeAnswers =
        List.replicate (s.cfg.cfgSeq.length + 1) 0#8 ++ (List.replicate n 0#8 ++ st :: rest) →
      ∃ t, exec .init s = .next t ∧ t.dev = ⟨true, false, true, true⟩ ∧ t.port = ⟨0x00#8, [0x01#8]⟩ ∧
        t.env.writeAnswers = rest ∧
        Grows s t ((initWrites s.cfg).map (okWrite s.cfg .chip0) ++ failedInit s.cfg .chip1 n st))

/-! ### Debounce filter (42_debounce_filter.md) -/

/-- R181, R182, R185, R32: FILTER writes HIST, STABLE and PENDING only; the delay line shifts by one, and
PENDING is 1 exactly when STABLE is not RAW. -/
def Obligations.FilterShiftsAndFlags : Prop :=
  ∀ s : State, ∃ t, exec .filter s = .next t ∧ t = (s.setSnap t.snap).setPort ⟨0x00#8, []⟩ ∧
    t.snap.raw = s.snap.raw ∧ t.snap.stablePrev = s.snap.stablePrev ∧
    histAt t.snap.hist 1 = s.snap.raw ∧
    (∀ j, 1 ≤ j → j < s.cfg.histLen → histAt t.snap.hist (j + 1) = histAt s.snap.hist j) ∧
    t.snap.hist.length ≤ s.cfg.histLen ∧ (t.snap.pending = true ↔ t.snap.stable ≠ t.snap.raw)

/-- R183: under SETTLE_CONFIRM, STABLE takes RAW exactly when the whole raw snapshot equals the previous one,
HIST[1] takes RAW in either case, and no event is recorded. -/
def Obligations.SettleConfirmNeedsTwoEqualReads : Prop :=
  ∀ s : State, s.cfg.policy = .settleConfirm → ∃ t, exec .filter s = .next t ∧
    (s.snap.raw = histAt s.snap.hist 1 → t.snap.stable = s.snap.raw) ∧
    (s.snap.raw ≠ histAt s.snap.hist 1 → t.snap.stable = s.snap.stable) ∧
    histAt t.snap.hist 1 = s.snap.raw ∧ t.trace = s.trace

/-- R184: under NOFN, each bit of STABLE takes a value exactly when RAW and the K - 1 raw snapshots before it
agree on it (0 only for rows below ROWS), and else keeps its own; the delay line shifts by one. -/
def Obligations.NofNAcceptsAgreedBits : Prop :=
  ∀ s : State, s.cfg.policy = .nofn → ∃ t, exec .filter s = .next t ∧
    histAt t.snap.hist 1 = s.snap.raw ∧
    (∀ j, 1 ≤ j → j + 1 < s.cfg.k → histAt t.snap.hist (j + 1) = histAt s.snap.hist j) ∧
    ∀ c r : Nat, c < s.cfg.cols → r < 8 →
      let ones := bitAt s.snap.raw c r = true ∧
        ∀ j, 1 ≤ j → j < s.cfg.k → bitAt (histAt s.snap.hist j) c r = true
      let zeros := r < s.cfg.rows ∧ bitAt s.snap.raw c r = false ∧
        ∀ j, 1 ≤ j → j < s.cfg.k → bitAt (histAt s.snap.hist j) c r = false
      (ones → bitAt t.snap.stable c r = true) ∧ (zeros → bitAt t.snap.stable c r = false) ∧
        (¬ ones → ¬ zeros → bitAt t.snap.stable c r = bitAt s.snap.stable c r)

/-- R186 (b): over any run of filter steps long enough to fill the delay line, a bit of STABLE changes only to
a value on which the current raw read and the K - 1 before it agree, so a shorter excursion never reaches
STABLE. Both policies. -/
def Obligations.ShortExcursionNeverReachesStable : Prop :=
  ∀ (p : Params) (g : SnapRegs) (xs : List Snapshot) (x : Snapshot) (c r : Nat),
    p.confirmDepth ≤ xs.length + 1 → c < p.cols → r < 8 →
    bitAt (feed p g (xs ++ [x])).stable c r ≠ bitAt (feed p g xs).stable c r →
    ∀ y ∈ (xs ++ [x]).drop (xs.length + 1 - p.confirmDepth),
      bitAt y c r = bitAt (feed p g (xs ++ [x])).stable c r

/-- R186 (a) for NOFN: after K consecutive reads with a bit at one value, STABLE has that value, whatever the
other bits do. -/
def Obligations.HeldBitIsConfirmedUnderNofN : Prop :=
  ∀ (p : Params) (g : SnapRegs) (xs : List Snapshot) (c r : Nat) (v : Bool),
    p.policy = .nofn → xs.length = p.k → c < p.cols → r < 8 → r < p.rows →
    (∀ x ∈ xs, bitAt x c r = v) → bitAt (feed p g xs).stable c r = v

/-- R187: RAWSET in range writes that element of RAW and no other, and touches nothing else. -/
def Obligations.RawsetWritesOneElement : Prop :=
  ∀ (col : BitVec 4) (val : Byte) (s : State), (Instr.rawset col val).wf s.cfg = true →
    s.snap.raw.length = s.cfg.cols →
    ∃ t, exec (.rawset col val) s = .next t ∧ t = (s.setSnap t.snap).setPort ⟨0x00#8, []⟩ ∧
      t.snap = { s.snap with raw := t.snap.raw } ∧ t.snap.raw.length = s.cfg.cols ∧
      snapAt t.snap.raw col.toNat = val ∧
      ∀ c, c ≠ col.toNat → snapAt t.snap.raw c = snapAt s.snap.raw c

/-! ### Edge dispatcher (43_edge_dispatcher.md) -/

/-- R200, R201: EdgeDispatch emits exactly the positions where the snapshots differ, with the new value, each
once: columns ascending, rows ascending within a column; as many events as differing bits; none for equal
snapshots. -/
def Obligations.EdgeDispatchEmitsTheDifferences : Prop :=
  ∀ (n : Nat) (a b : Snapshot),
    (∀ e : KeyEvent, e ∈ edgeDispatch n a b ↔
      e.col < n ∧ e.row < 8 ∧ bitAt a e.col e.row ≠ bitAt b e.col e.row ∧ e.pressed = bitAt b e.col e.row) ∧
    (edgeDispatch n a b).length = ((List.range n).map fun c => popCount (snapAt a c ^^^ snapAt b c)).sum ∧
    edgeDispatch n a a = [] ∧ (edgeDispatch n a b).Pairwise Before ∧ (edgeDispatch n a b).Nodup

/-- R202, R216: DIFF records one KEY event per difference in the order of EdgeDispatch, sets STABLE_PREV to STABLE,
and changes no other snapshot, device or sequencing register. With every event's row in the matrix (as R53 item 1
makes it), DIFF is each event recorded and then dispatched as DISPATCH does, before the next one; so LAYER and the
report are those of the DISPATCH commands in that order (vector K-6). -/
def Obligations.DiffRecordsAndLatches : Prop :=
  ∀ s : State,
    let es := edgeDispatch s.cfg.cols s.snap.stablePrev s.snap.stable
    ∃ t more, exec .diff s = .next t ∧ t.trace = s.trace ++ more ∧ more.filter isKey = es.map keyEvent ∧
      t.snap = { s.snap with stablePrev := s.snap.stable } ∧ t.cfg = s.cfg ∧ t.dev = s.dev ∧ t.seq = s.seq ∧
      t.report.lastSendOk = s.report.lastSendOk ∧ WakeMoves s t ∧ NoAnswerTaken s t ∧ t.port = ⟨0x00#8, []⟩ ∧
      ((∀ e ∈ es, e.row < s.cfg.rows) →
        (∃ u, recordAndDispatch es s = .next u ∧
          t = (u.setSnap { u.snap with stablePrev := u.snap.stable }).setPort ⟨0x00#8, []⟩) ∧
        ∃ v, dispatchAll es s = .next v ∧ t.layer = v.layer ∧ t.report = v.report)

/-- R202: a second DIFF with no FILTER in between changes nothing at all. -/
def Obligations.SecondDiffDoesNothing : Prop :=
  ∀ s : State, ∃ t, exec .diff s = .next t ∧ exec .diff t = .next t

/-! ### Keymap dispatcher (44_keymap_dispatcher.md) -/

/-- R217, R219, R216: an in-range event whose first function-key entry is a layer key moves LAYER by one, clamped to 0
and LAYERS - 1, and writes nothing else; with one layer, LAYER stays 0. -/
def Obligations.LayerKeyMovesLayer : Prop :=
  ∀ (b : Bool) (r : BitVec 3) (c : BitVec 4) (s : State) (e : FkEntry),
    (Instr.dispatch b r c).wf s.cfg = true → FirstEntry s.cfg r.toNat c.toNat e → e.action = .layerSwitch →
    ∃ t, exec (.dispatch b r c) s = .next t ∧ t = (s.setLayer t.layer).setPort ⟨0x00#8, []⟩ ∧
      (b = true → t.layer = min (s.layer + 1) (s.cfg.layers - 1)) ∧
      (b = false → (t.layer : Int) = max ((s.layer : Int) - 1) 0) ∧
      (s.cfg.layers = 1 → s.layer = 0 → t.layer = 0)

/-- R220, R216, R217: an in-range event whose first function-key entry is another action only records its ACT event. -/
def Obligations.OtherActionOnlyRecords : Prop :=
  ∀ (b : Bool) (r : BitVec 3) (c : BitVec 4) (s : State) (e : FkEntry) (id : Byte),
    (Instr.dispatch b r c).wf s.cfg = true → FirstEntry s.cfg r.toNat c.toNat e → e.action = .other id →
    ∃ t, exec (.dispatch b r c) s = .next t ∧ SameBlock s t ∧ WakeMoves s t ∧ NoAnswerTaken s t ∧
      Grows s t [.act id (if b then .actBegin else .actEnd)] ∧ t.port = ⟨0x00#8, []⟩

/-- R221, R236: an in-range press on no function key does to the report what ADD_KEY of the current layer's
keycode does, and nothing for keycode 0; LAYER, the snapshots and the trace stay. -/
def Obligations.PressAddsCurrentLayerKeycode : Prop :=
  ∀ (r : BitVec 3) (c : BitVec 4) (s : State), (Instr.dispatch true r c).wf s.cfg = true →
    NoEntry s.cfg r.toNat c.toNat →
    exec (.dispatch true r c) s = exec (.addKey (s.cfg.keymapAt s.layer r.toNat c.toNat)) s ∧
      ∃ t, exec (.dispatch true r c) s = .next t ∧ t = (s.setReport t.report).setPort ⟨0x00#8, []⟩ ∧
        (s.cfg.keymapAt s.layer r.toNat c.toNat = 0#8 → t.report = s.report)

/-- R222, R224: an in-range release on no function key does what REMOVE_KEY of each layer's non-zero keycode does, in
ascending layer order, whatever the current layer, DIRTY included. So a modifier's bit is clear after it, and a keycode
that stood in at most one slot stands in none: no key gets stuck after a layer switch. -/
def Obligations.ReleaseRemovesEveryLayersKeycode : Prop :=
  ∀ (r : BitVec 3) (c : BitVec 4) (s : State), (Instr.dispatch false r c).wf s.cfg = true →
    NoEntry s.cfg r.toNat c.toNat →
    ∃ t, exec (.dispatch false r c) s = .next t ∧ t = (s.setReport t.report).setPort ⟨0x00#8, []⟩ ∧
      t.report.lastSendOk = s.report.lastSendOk ∧
      (∃ u, ((codesOf s.cfg r.toNat c.toNat).map Instr.removeKey).foldl andThen (.next s) = .next u ∧
        t = u.setPort ⟨0x00#8, []⟩) ∧
      ∀ l, l < s.cfg.layers →
        let kc := s.cfg.keymapAt l r.toNat c.toNat
        kc ≠ 0#8 →
          (∀ b : Fin 8, s.cfg.modBit kc = some b → t.report.mods.getLsbD b.val = false) ∧
          (s.cfg.modBit kc = none → s.report.slots.toList.count kc ≤ 1 → kc ∉ t.report.slots.toList)

/-- R106, R116: DISPATCH and RAWSET with an operand out of range report ILLEGAL_COMMAND and change nothing
else (the decoder refuses such a word; `exec` on such a term does the same, log 7). -/
def Obligations.OutOfRangeOperandsOnlyReport : Prop :=
  ∀ (i : Instr) (s : State), i.wf s.cfg = false → exec i s = .next (s.setPort ⟨0x01#8, []⟩)

/-! ### Report assembler (45_report_assembler.md) -/

/-- R236, R241: ADD_KEY from a compacted report: keycode 0 does nothing; a modifier sets its bit and no slot; any
other keycode joins the occupied slots at the end, the oldest evicted when all six are occupied. -/
def Obligations.AddKeyResult : Prop :=
  ∀ (kc : Byte) (s : State), s.report.slots.Compact → ∃ t, exec (.addKey kc) s = .next t ∧
    t = (s.setReport t.report).setPort ⟨0x00#8, []⟩ ∧ t.report.lastSendOk = s.report.lastSendOk ∧
    t.report.slots.Compact ∧
    (kc = 0#8 → t.report = s.report) ∧
    (∀ b, s.cfg.modBit kc = some b →
      t.report.slots = s.report.slots ∧
        ∀ n, n < 8 → t.report.mods.getLsbD n = (s.report.mods.getLsbD n || decide (n = b.val))) ∧
    (kc ≠ 0#8 → s.cfg.modBit kc = none →
      t.report.mods = s.report.mods ∧
        t.report.slots.occupied =
          (if s.report.slots.occupied.length < 6 then s.report.slots.occupied ++ [kc]
          else s.report.slots.occupied.tail ++ [kc]))

/-- R239, R241: REMOVE_KEY from a compacted report: keycode 0 does nothing; a modifier clears its bit and no
slot; of any other keycode the first occurrence leaves the occupied slots. -/
def Obligations.RemoveKeyResult : Prop :=
  ∀ (kc : Byte) (s : State), s.report.slots.Compact → ∃ t, exec (.removeKey kc) s = .next t ∧
    t = (s.setReport t.report).setPort ⟨0x00#8, []⟩ ∧ t.report.lastSendOk = s.report.lastSendOk ∧
    t.report.slots.Compact ∧
    (kc = 0#8 → t.report = s.report) ∧
    (∀ b, s.cfg.modBit kc = some b →
      t.report.slots = s.report.slots ∧
        ∀ n, n < 8 → t.report.mods.getLsbD n = (s.report.mods.getLsbD n && !decide (n = b.val))) ∧
    (kc ≠ 0#8 → s.cfg.modBit kc = none →
      t.report.mods = s.report.mods ∧ t.report.slots.occupied = s.report.slots.occupied.erase kc)

/-- R237, R240: ADD_KEY and REMOVE_KEY set DIRTY exactly when they change MODS or a slot, and else keep it. -/
def Obligations.DirtyMarksExactlyChanges : Prop :=
  ∀ (kc : Byte) (s : State) (i : Instr), i = .addKey kc ∨ i = .removeKey kc →
    ∃ t, exec i s = .next t ∧
      (SameKeys s.report t.report → t.report.dirty = s.report.dirty) ∧
      (¬ SameKeys s.report t.report → t.report.dirty = true)

/-- R238: a 7th distinct non-modifier key evicts slot 0's key, stands in slot 5, and the evicted key, held in
one slot, is gone. -/
def Obligations.SeventhKeyEvictsTheOldest : Prop :=
  ∀ (kc : Byte) (s : State), kc ≠ 0#8 → s.cfg.modBit kc = none →
    (∀ i : Fin 6, s.report.slots.get i ≠ 0#8) → kc ∉ s.report.slots.toList →
    s.report.slots.toList.count s.report.slots.s0 = 1 →
    ∃ t u, exec (.addKey kc) s = .next t ∧ t.report.slots.s5 = kc ∧
      s.report.slots.s0 ∉ t.report.slots.toList ∧ t.report.slots.occupied.length ≤ 6 ∧ exec .serialize t = .next u ∧
      u.port.result.length = 9 ∧ u.port.result.getD 8 0#8 = kc

/-- R242: IS_ANY answers 0x01 exactly when a modifier bit is set or a slot is not empty, and changes STATUS and
RESULT only. -/
def Obligations.IsAnyResult : Prop :=
  encode .isAny = 0x24000000#32 ∧
  ∀ s : State, ∃ b : Byte, exec .isAny s = .next (s.setPort ⟨0x00#8, [b]⟩) ∧
    ((s.report.mods ≠ 0#8 ∨ ∃ i : Fin 6, s.report.slots.get i ≠ 0#8) → b = 0x01#8) ∧
    (EmptyReport s.report → b = 0x00#8)

/-- R243, R86: SERIALIZE returns report id, modifier byte, zero and the six slots, and changes STATUS and RESULT
only. -/
def Obligations.SerializeResult : Prop :=
  encode .serialize = 0x28000000#32 ∧
  ∀ s : State, ∃ bytes : List Byte, exec .serialize s = .next (s.setPort ⟨0x00#8, bytes⟩) ∧
    bytes.length = 9 ∧ bytes.getD 0 0#8 = s.cfg.reportId ∧ bytes.getD 1 0#8 = s.report.mods ∧
    bytes.getD 2 0#8 = 0x00#8 ∧ ∀ i : Fin 6, bytes.getD (3 + i.val) 0#8 = s.report.slots.get i

/-- R244: from the empty report, adding and removing any keycode yields the all-empty report again. -/
def Obligations.AddRemoveRoundTrip : Prop :=
  ∀ (kc : Byte) (s : State), EmptyReport s.report →
    ∃ t u v, exec (.addKey kc) s = .next t ∧ exec (.removeKey kc) t = .next u ∧ exec .serialize u = .next v ∧
      SameKeys s.report u.report ∧
      v.port.result = [s.cfg.reportId, 0x00#8, 0x00#8, 0x00#8, 0x00#8, 0x00#8, 0x00#8, 0x00#8, 0x00#8]

/-- R245, R285: TRANSMIT sends the serialized report whatever DIRTY holds, records the answer in LAST_SEND_OK,
clears DIRTY, reports SEND_REJECTED on a rejection, and rolls nothing back. -/
def Obligations.TransmitResult : Prop :=
  encode .transmit = 0x2C000000#32 ∧
  ∀ s : State, ∃ t, exec .transmit s = .next t ∧ t.cfg = s.cfg ∧ t.snap = s.snap ∧ t.layer = s.layer ∧
    t.dev = s.dev ∧ t.seq = s.seq ∧ WakeMoves s t ∧
    t.report = { s.report with dirty := false, lastSendOk := s.env.nextAccepted } ∧
    Grows s t [.send (s.cfg.reportId :: s.report.mods :: 0x00#8 :: s.report.slots.toList) s.env.nextAccepted] ∧
    t.env.sendAnswers = s.env.sendAnswers.tail ∧
    t.port = (if s.env.nextAccepted then ⟨0x00#8, []⟩ else ⟨0x03#8, []⟩)

/-! ### Pipeline controller (46_pipeline_control.md) -/

/-- R261, R264, R265, R268: what CYCLE leaves from any state: the snapshots, LAYER and keys of its passes; their
events, then the SEND of the report if it was dirty (so DIRTY is 0), then the inter-cycle wait; WAKE down by one but
not below 0 (with no edge scheduled); PIPE_PHASE IDLE; STATUS 0x03 exactly when a SEND was made and rejected; READY and
INITIALIZED untouched. -/
def Obligations.CycleResult : Prop :=
  encode .cycle = 0x08000000#32 ∧
  ∀ s : State,
    let c := cyclePasses s
    ∃ t own, exec .cycle s = .next t ∧ t.cfg = s.cfg ∧ t.snap = c.snap ∧ t.layer = c.layer ∧
      SameKeys c.report t.report ∧ t.report.dirty = false ∧
      t.snap.stablePrev = t.snap.stable ∧ (t.snap.pending = true ↔ t.snap.stable ≠ t.snap.raw) ∧
      t.dev = { s.dev with irqEn := s.dev.initialized } ∧
      (s.env.edges = [] → t.wake = (if s.wake = 0#32 then 0#32 else s.wake - 1#32)) ∧
      t.seq.scanState = .idle ∧ t.seq.pipePhase = .idle ∧ t.seq.passCount = c.seq.passCount ∧
      t.seq.passCount ≤ s.cfg.requeuePasses ∧
      (t.snap.pending = true → t.seq.passCount = s.cfg.requeuePasses) ∧
      t.port = (if c.report.dirty = true ∧ c.env.nextAccepted = false then ⟨0x03#8, []⟩ else ⟨0x00#8, []⟩) ∧
      Grows s c own ∧ Grows s t (own ++ sentIfDirty s.cfg c ++ [.wait .debounce])

/-- R265, R261, R245: CYCLE makes exactly one transmission when DIRTY is 1 after its last pass, and none otherwise. The
SEND carries the report as its passes left it, with the transport's next answer (no pass takes one); LAST_SEND_OK is that
answer, STATUS tells it, DIRTY is cleared and the keys stay. With nothing to send the report is untouched. -/
def Obligations.CycleSendsExactlyWhenDirty : Prop :=
  ∀ s : State,
    let c := cyclePasses s
    ∃ t more, exec .cycle s = .next t ∧ t.trace = s.trace ++ more ∧
      more.filter isSend = sentIfDirty s.cfg c ∧ c.env.sendAnswers = s.env.sendAnswers ∧
      t.report.dirty = false ∧
      (c.report.dirty = false →
        t.report = c.report ∧ t.port = ⟨0x00#8, []⟩ ∧ t.env.sendAnswers = s.env.sendAnswers) ∧
      (c.report.dirty = true →
        t.report = { c.report with dirty := false, lastSendOk := c.env.nextAccepted } ∧
          t.port = (if c.env.nextAccepted then ⟨0x00#8, []⟩ else ⟨0x03#8, []⟩) ∧
          t.env.sendAnswers = s.env.sendAnswers.tail)

/-- R262, R261: after its first pass a CYCLE runs some number `n` of further passes, each after an inter-cycle wait,
and PASS_COUNT counts them: every one of them follows a pass that left PENDING 1, they are at most REQUEUE_PASSES, and
when they are fewer the last left PENDING 0. So they stop as soon as PENDING is 0. -/
def Obligations.RequeueUntilSettledOrBound : Prop :=
  ∀ s : State,
    let first := passBody (setPassCount 0 (setPhase .pass s))
    ∃ n : Nat, n ≤ s.cfg.requeuePasses ∧ cyclePasses s = againPass^[n] first ∧
      (cyclePasses s).seq.passCount = n ∧
      (∀ m, m < n → (againPass^[m] first).snap.pending = true) ∧
      (n < s.cfg.requeuePasses → (cyclePasses s).snap.pending = false)

/-- R262, R202: under SETTLE_CONFIRM, a requeue pass that reads the same raw snapshot as the pass before it confirms
the change and dispatches it: it records one KEY event per difference between the old STABLE and the raw snapshot, and
with their rows in the matrix LAYER and the report are those of the DISPATCH commands of these events. -/
def Obligations.RequeuePassConfirmsHeldChange : Prop :=
  ∀ s : State, s.cfg.policy = .settleConfirm →
    let one := passBody s
    let two := requeuePass one
    two.snap.raw = one.snap.raw →
      let es := edgeDispatch s.cfg.cols one.snap.stable one.snap.raw
      two.snap.pending = false ∧ two.snap.stable = one.snap.raw ∧ two.snap.stablePrev = one.snap.raw ∧
        (∃ more, two.trace = one.trace ++ more ∧ more.filter isKey = es.map keyEvent) ∧
        ((∀ e ∈ es, e.row < s.cfg.rows) →
          ∃ v, dispatchAll es one = .next v ∧ two.layer = v.layer ∧ two.report = v.report)

/-- R263, R113: the commands SCAN, FILTER, DIFF in sequence are one pass. -/
def Obligations.ScanFilterDiffIsOnePass : Prop :=
  ∀ s : State, ∃ a b c, exec .scan s = .next a ∧ exec .filter a = .next b ∧ exec .diff b = .next c ∧
    c = (passBody s).setPort ⟨0x00#8, []⟩

/-- R314, R312, R158: from the reset state of any parameters, whatever the environment does, CYCLE's own events are the
final wait alone, and snapshots, report, flags, WAKE, LAYER, SCAN_STATE, PIPE_PHASE and PASS_COUNT stay as reset left
them. From any state in which neither chip is ready, as before INIT, a CYCLE makes no bus call. -/
def Obligations.CycleBeforeInitScansNothing : Prop :=
  (∀ (p : Params) (e : Env),
    let s := (State.resetWith p).setEnv e
    ∃ t, exec .cycle s = .next t ∧ Grows s t [.wait .debounce] ∧
      t.snap = s.snap ∧ t.report = s.report ∧ t.dev = s.dev ∧ t.wake = 0#32 ∧ t.layer = 0 ∧
      t.seq.scanState = .idle ∧ t.seq.pipePhase = .idle ∧ t.seq.passCount = 0 ∧ t.port = ⟨0x00#8, []⟩) ∧
  ∀ s : State, s.dev.ready0 = false → s.dev.ready1 = false →
    ∃ t more, exec .cycle s = .next t ∧ t.trace = s.trace ++ more ∧ ∀ e ∈ more, isBus e = false

/-! ### Assembler (30_encoding.md R113) -/

/-- R113: LOADRAW with one value per column is one RAWSET per column, in ascending order; in range and run from any
state with a full RAW, they leave exactly those values in RAW. -/
def Obligations.LoadrawLoadsEveryColumn : Prop :=
  ∀ (vals : List Byte) (s : State), vals.length = s.cfg.cols → s.snap.raw.length = s.cfg.cols →
    (∀ v ∈ vals, v &&& ~~~ s.cfg.rowMask = 0#8) →
    ∃ is, Pseudo.expand s.cfg (.loadraw vals) = some is ∧ is.length = s.cfg.cols ∧
      (∀ n, n < s.cfg.cols → is[n]? = some (.rawset (BitVec.ofNat 4 n) (vals.getD n 0#8))) ∧
      (∀ i ∈ is, i.wf s.cfg = true) ∧
      ∃ t, is.foldl andThen (.next s) = .next t ∧ t.snap.raw = vals
end

