-- ==== Sys2Proof/Laws/State.lean ====
section
/-! SUPPORT. One lemma per field per update of State, true by rfl, so that no proof unfolds a record
update. -/

namespace Sys2Proof.Machine.State

variable (s : State)

@[simp] theorem setSnap_cfg (v : SnapRegs) : (s.setSnap v).cfg = s.cfg := rfl
@[simp] theorem setSnap_snap (v : SnapRegs) : (s.setSnap v).snap = v := rfl
@[simp] theorem setSnap_layer (v : SnapRegs) : (s.setSnap v).layer = s.layer := rfl
@[simp] theorem setSnap_report (v : SnapRegs) : (s.setSnap v).report = s.report := rfl
@[simp] theorem setSnap_dev (v : SnapRegs) : (s.setSnap v).dev = s.dev := rfl
@[simp] theorem setSnap_wake (v : SnapRegs) : (s.setSnap v).wake = s.wake := rfl
@[simp] theorem setSnap_port (v : SnapRegs) : (s.setSnap v).port = s.port := rfl
@[simp] theorem setSnap_seq (v : SnapRegs) : (s.setSnap v).seq = s.seq := rfl
@[simp] theorem setSnap_trace (v : SnapRegs) : (s.setSnap v).trace = s.trace := rfl
@[simp] theorem setSnap_env (v : SnapRegs) : (s.setSnap v).env = s.env := rfl
@[simp] theorem setSnap_setSnap (v w : SnapRegs) : (s.setSnap v).setSnap w = s.setSnap w := rfl
@[simp] theorem setSnap_self : s.setSnap s.snap = s := rfl

@[simp] theorem setLayer_cfg (v : Nat) : (s.setLayer v).cfg = s.cfg := rfl
@[simp] theorem setLayer_snap (v : Nat) : (s.setLayer v).snap = s.snap := rfl
@[simp] theorem setLayer_layer (v : Nat) : (s.setLayer v).layer = v := rfl
@[simp] theorem setLayer_report (v : Nat) : (s.setLayer v).report = s.report := rfl
@[simp] theorem setLayer_dev (v : Nat) : (s.setLayer v).dev = s.dev := rfl
@[simp] theorem setLayer_wake (v : Nat) : (s.setLayer v).wake = s.wake := rfl
@[simp] theorem setLayer_port (v : Nat) : (s.setLayer v).port = s.port := rfl
@[simp] theorem setLayer_seq (v : Nat) : (s.setLayer v).seq = s.seq := rfl
@[simp] theorem setLayer_trace (v : Nat) : (s.setLayer v).trace = s.trace := rfl
@[simp] theorem setLayer_env (v : Nat) : (s.setLayer v).env = s.env := rfl
@[simp] theorem setLayer_setLayer (v w : Nat) : (s.setLayer v).setLayer w = s.setLayer w := rfl
@[simp] theorem setLayer_self : s.setLayer s.layer = s := rfl

@[simp] theorem setReport_cfg (v : Report) : (s.setReport v).cfg = s.cfg := rfl
@[simp] theorem setReport_snap (v : Report) : (s.setReport v).snap = s.snap := rfl
@[simp] theorem setReport_layer (v : Report) : (s.setReport v).layer = s.layer := rfl
@[simp] theorem setReport_report (v : Report) : (s.setReport v).report = v := rfl
@[simp] theorem setReport_dev (v : Report) : (s.setReport v).dev = s.dev := rfl
@[simp] theorem setReport_wake (v : Report) : (s.setReport v).wake = s.wake := rfl
@[simp] theorem setReport_port (v : Report) : (s.setReport v).port = s.port := rfl
@[simp] theorem setReport_seq (v : Report) : (s.setReport v).seq = s.seq := rfl
@[simp] theorem setReport_trace (v : Report) : (s.setReport v).trace = s.trace := rfl
@[simp] theorem setReport_env (v : Report) : (s.setReport v).env = s.env := rfl
@[simp] theorem setReport_setReport (v w : Report) : (s.setReport v).setReport w = s.setReport w := rfl
@[simp] theorem setReport_self : s.setReport s.report = s := rfl

@[simp] theorem setDev_cfg (v : DevRegs) : (s.setDev v).cfg = s.cfg := rfl
@[simp] theorem setDev_snap (v : DevRegs) : (s.setDev v).snap = s.snap := rfl
@[simp] theorem setDev_layer (v : DevRegs) : (s.setDev v).layer = s.layer := rfl
@[simp] theorem setDev_report (v : DevRegs) : (s.setDev v).report = s.report := rfl
@[simp] theorem setDev_dev (v : DevRegs) : (s.setDev v).dev = v := rfl
@[simp] theorem setDev_wake (v : DevRegs) : (s.setDev v).wake = s.wake := rfl
@[simp] theorem setDev_port (v : DevRegs) : (s.setDev v).port = s.port := rfl
@[simp] theorem setDev_seq (v : DevRegs) : (s.setDev v).seq = s.seq := rfl
@[simp] theorem setDev_trace (v : DevRegs) : (s.setDev v).trace = s.trace := rfl
@[simp] theorem setDev_env (v : DevRegs) : (s.setDev v).env = s.env := rfl
@[simp] theorem setDev_setDev (v w : DevRegs) : (s.setDev v).setDev w = s.setDev w := rfl
@[simp] theorem setDev_self : s.setDev s.dev = s := rfl

@[simp] theorem setWake_cfg (v : Word) : (s.setWake v).cfg = s.cfg := rfl
@[simp] theorem setWake_snap (v : Word) : (s.setWake v).snap = s.snap := rfl
@[simp] theorem setWake_layer (v : Word) : (s.setWake v).layer = s.layer := rfl
@[simp] theorem setWake_report (v : Word) : (s.setWake v).report = s.report := rfl
@[simp] theorem setWake_dev (v : Word) : (s.setWake v).dev = s.dev := rfl
@[simp] theorem setWake_wake (v : Word) : (s.setWake v).wake = v := rfl
@[simp] theorem setWake_port (v : Word) : (s.setWake v).port = s.port := rfl
@[simp] theorem setWake_seq (v : Word) : (s.setWake v).seq = s.seq := rfl
@[simp] theorem setWake_trace (v : Word) : (s.setWake v).trace = s.trace := rfl
@[simp] theorem setWake_env (v : Word) : (s.setWake v).env = s.env := rfl
@[simp] theorem setWake_setWake (v w : Word) : (s.setWake v).setWake w = s.setWake w := rfl
@[simp] theorem setWake_self : s.setWake s.wake = s := rfl

@[simp] theorem setPort_cfg (v : PortRegs) : (s.setPort v).cfg = s.cfg := rfl
@[simp] theorem setPort_snap (v : PortRegs) : (s.setPort v).snap = s.snap := rfl
@[simp] theorem setPort_layer (v : PortRegs) : (s.setPort v).layer = s.layer := rfl
@[simp] theorem setPort_report (v : PortRegs) : (s.setPort v).report = s.report := rfl
@[simp] theorem setPort_dev (v : PortRegs) : (s.setPort v).dev = s.dev := rfl
@[simp] theorem setPort_wake (v : PortRegs) : (s.setPort v).wake = s.wake := rfl
@[simp] theorem setPort_port (v : PortRegs) : (s.setPort v).port = v := rfl
@[simp] theorem setPort_seq (v : PortRegs) : (s.setPort v).seq = s.seq := rfl
@[simp] theorem setPort_trace (v : PortRegs) : (s.setPort v).trace = s.trace := rfl
@[simp] theorem setPort_env (v : PortRegs) : (s.setPort v).env = s.env := rfl
@[simp] theorem setPort_setPort (v w : PortRegs) : (s.setPort v).setPort w = s.setPort w := rfl
@[simp] theorem setPort_self : s.setPort s.port = s := rfl

@[simp] theorem setSeq_cfg (v : SeqRegs) : (s.setSeq v).cfg = s.cfg := rfl
@[simp] theorem setSeq_snap (v : SeqRegs) : (s.setSeq v).snap = s.snap := rfl
@[simp] theorem setSeq_layer (v : SeqRegs) : (s.setSeq v).layer = s.layer := rfl
@[simp] theorem setSeq_report (v : SeqRegs) : (s.setSeq v).report = s.report := rfl
@[simp] theorem setSeq_dev (v : SeqRegs) : (s.setSeq v).dev = s.dev := rfl
@[simp] theorem setSeq_wake (v : SeqRegs) : (s.setSeq v).wake = s.wake := rfl
@[simp] theorem setSeq_port (v : SeqRegs) : (s.setSeq v).port = s.port := rfl
@[simp] theorem setSeq_seq (v : SeqRegs) : (s.setSeq v).seq = v := rfl
@[simp] theorem setSeq_trace (v : SeqRegs) : (s.setSeq v).trace = s.trace := rfl
@[simp] theorem setSeq_env (v : SeqRegs) : (s.setSeq v).env = s.env := rfl
@[simp] theorem setSeq_setSeq (v w : SeqRegs) : (s.setSeq v).setSeq w = s.setSeq w := rfl
@[simp] theorem setSeq_self : s.setSeq s.seq = s := rfl

@[simp] theorem setTrace_cfg (v : List Event) : (s.setTrace v).cfg = s.cfg := rfl
@[simp] theorem setTrace_snap (v : List Event) : (s.setTrace v).snap = s.snap := rfl
@[simp] theorem setTrace_layer (v : List Event) : (s.setTrace v).layer = s.layer := rfl
@[simp] theorem setTrace_report (v : List Event) : (s.setTrace v).report = s.report := rfl
@[simp] theorem setTrace_dev (v : List Event) : (s.setTrace v).dev = s.dev := rfl
@[simp] theorem setTrace_wake (v : List Event) : (s.setTrace v).wake = s.wake := rfl
@[simp] theorem setTrace_port (v : List Event) : (s.setTrace v).port = s.port := rfl
@[simp] theorem setTrace_seq (v : List Event) : (s.setTrace v).seq = s.seq := rfl
@[simp] theorem setTrace_trace (v : List Event) : (s.setTrace v).trace = v := rfl
@[simp] theorem setTrace_env (v : List Event) : (s.setTrace v).env = s.env := rfl
@[simp] theorem setTrace_setTrace (v w : List Event) : (s.setTrace v).setTrace w = s.setTrace w := rfl
@[simp] theorem setTrace_self : s.setTrace s.trace = s := rfl

@[simp] theorem setEnv_cfg (v : Env) : (s.setEnv v).cfg = s.cfg := rfl
@[simp] theorem setEnv_snap (v : Env) : (s.setEnv v).snap = s.snap := rfl
@[simp] theorem setEnv_layer (v : Env) : (s.setEnv v).layer = s.layer := rfl
@[simp] theorem setEnv_report (v : Env) : (s.setEnv v).report = s.report := rfl
@[simp] theorem setEnv_dev (v : Env) : (s.setEnv v).dev = s.dev := rfl
@[simp] theorem setEnv_wake (v : Env) : (s.setEnv v).wake = s.wake := rfl
@[simp] theorem setEnv_port (v : Env) : (s.setEnv v).port = s.port := rfl
@[simp] theorem setEnv_seq (v : Env) : (s.setEnv v).seq = s.seq := rfl
@[simp] theorem setEnv_trace (v : Env) : (s.setEnv v).trace = s.trace := rfl
@[simp] theorem setEnv_env (v : Env) : (s.setEnv v).env = v := rfl
@[simp] theorem setEnv_setEnv (v w : Env) : (s.setEnv v).setEnv w = s.setEnv w := rfl
@[simp] theorem setEnv_self : s.setEnv s.env = s := rfl

end Sys2Proof.Machine.State
end

