-- ==== Sys2Proof/Laws/Ops.lean ====
section
/-! SUPPORT. What the shared operations can do: an interrupt edge touches WAKE and the trace, an event joins
the trace, and every bus operation leaves the block's registers alone. -/

namespace Sys2Proof.Machine

/-! ### The interrupt event and the interleaving points -/


@[simp] theorem irqEdge_cfg (s : State) : (irqEdge s).cfg = s.cfg := by
  unfold irqEdge; split <;> rfl

@[simp] theorem irqEdge_snap (s : State) : (irqEdge s).snap = s.snap := by
  unfold irqEdge; split <;> rfl

@[simp] theorem irqEdge_layer (s : State) : (irqEdge s).layer = s.layer := by
  unfold irqEdge; split <;> rfl

@[simp] theorem irqEdge_report (s : State) : (irqEdge s).report = s.report := by
  unfold irqEdge; split <;> rfl

@[simp] theorem irqEdge_dev (s : State) : (irqEdge s).dev = s.dev := by
  unfold irqEdge; split <;> rfl

@[simp] theorem irqEdge_port (s : State) : (irqEdge s).port = s.port := by
  unfold irqEdge; split <;> rfl

@[simp] theorem irqEdge_seq (s : State) : (irqEdge s).seq = s.seq := by
  unfold irqEdge; split <;> rfl

@[simp] theorem irqEdge_env (s : State) : (irqEdge s).env = s.env := by
  unfold irqEdge; split <;> rfl

@[simp] theorem irqEdges_cfg (n : Nat) (s : State) : (irqEdges n s).cfg = s.cfg := by
  induction n generalizing s with
  | zero => rfl
  | succ n ih => simp [irqEdges, ih]

@[simp] theorem irqEdges_snap (n : Nat) (s : State) : (irqEdges n s).snap = s.snap := by
  induction n generalizing s with
  | zero => rfl
  | succ n ih => simp [irqEdges, ih]

@[simp] theorem irqEdges_layer (n : Nat) (s : State) : (irqEdges n s).layer = s.layer := by
  induction n generalizing s with
  | zero => rfl
  | succ n ih => simp [irqEdges, ih]

@[simp] theorem irqEdges_report (n : Nat) (s : State) : (irqEdges n s).report = s.report := by
  induction n generalizing s with
  | zero => rfl
  | succ n ih => simp [irqEdges, ih]

@[simp] theorem irqEdges_dev (n : Nat) (s : State) : (irqEdges n s).dev = s.dev := by
  induction n generalizing s with
  | zero => rfl
  | succ n ih => simp [irqEdges, ih]

@[simp] theorem irqEdges_port (n : Nat) (s : State) : (irqEdges n s).port = s.port := by
  induction n generalizing s with
  | zero => rfl
  | succ n ih => simp [irqEdges, ih]

@[simp] theorem irqEdges_seq (n : Nat) (s : State) : (irqEdges n s).seq = s.seq := by
  induction n generalizing s with
  | zero => rfl
  | succ n ih => simp [irqEdges, ih]

@[simp] theorem irqEdges_env (n : Nat) (s : State) : (irqEdges n s).env = s.env := by
  induction n generalizing s with
  | zero => rfl
  | succ n ih => simp [irqEdges, ih]

@[simp] theorem interleave_cfg (s : State) : (interleave s).cfg = s.cfg := by
  unfold interleave; split <;> simp

@[simp] theorem interleave_snap (s : State) : (interleave s).snap = s.snap := by
  unfold interleave; split <;> simp

@[simp] theorem interleave_layer (s : State) : (interleave s).layer = s.layer := by
  unfold interleave; split <;> simp

@[simp] theorem interleave_report (s : State) : (interleave s).report = s.report := by
  unfold interleave; split <;> simp

@[simp] theorem interleave_dev (s : State) : (interleave s).dev = s.dev := by
  unfold interleave; split <;> simp

@[simp] theorem interleave_port (s : State) : (interleave s).port = s.port := by
  unfold interleave; split <;> simp

@[simp] theorem interleave_seq (s : State) : (interleave s).seq = s.seq := by
  unfold interleave; split <;> simp

@[simp] theorem interleave_env_inputs (s : State) : (interleave s).env.inputs = s.env.inputs := by
  unfold interleave; split <;> simp

@[simp] theorem interleave_env_writeAnswers (s : State) : (interleave s).env.writeAnswers = s.env.writeAnswers := by
  unfold interleave; split <;> simp

@[simp] theorem interleave_env_readAnswers (s : State) : (interleave s).env.readAnswers = s.env.readAnswers := by
  unfold interleave; split <;> simp

@[simp] theorem interleave_env_sendAnswers (s : State) : (interleave s).env.sendAnswers = s.env.sendAnswers := by
  unfold interleave; split <;> simp

@[simp] theorem interleave_env_freeCount (s : State) : (interleave s).env.freeCount = s.env.freeCount := by
  unfold interleave; split <;> simp

/-- An interleaving point only advances the schedule of edges. -/
theorem interleave_env (s : State) : (interleave s).env = { s.env with edges := s.env.edges.tail } := by
  unfold interleave
  split <;> simp_all
  rename_i h
  rw [← h]

/-- With no edge scheduled, an interleaving point does nothing. -/
@[simp] theorem interleave_of_no_edges (s : State) (h : s.env.edges = []) : interleave s = s := by
  unfold interleave; rw [h]

/-- What one edge can do (R266). -/
theorem irqEdge_spec (s : State) :
    (s.dev.irqEn = true ∧ irqEdge s = (s.setWake s.cfg.pollReload).setTrace (s.trace ++ [.irq .taken])) ∨
      (s.dev.irqEn = false ∧ irqEdge s = s.setTrace (s.trace ++ [.irq .dropped])) := by
  unfold irqEdge
  cases h : s.dev.irqEn <;> simp

/-- Edges add only interrupt entries to the trace, and leave WAKE or load it. -/
theorem irqEdges_spec (n : Nat) (s : State) :
    ∃ more, (irqEdges n s).trace = s.trace ++ more ∧ (∀ e ∈ more, isIrq e = true) ∧
      (s.dev.irqEn = false → (irqEdges n s).wake = s.wake ∧ ∀ e ∈ more, e = .irq .dropped) ∧
      ((irqEdges n s).wake = s.wake ∨ (irqEdges n s).wake = s.cfg.pollReload) := by
  induction n generalizing s with
  | zero => exact ⟨[], by simp [irqEdges]⟩
  | succ n ih =>
    obtain ⟨more, ht, hi, hd, hw⟩ := ih (irqEdge s)
    obtain ⟨hen, he⟩ | ⟨hen, he⟩ := irqEdge_spec s
    · refine ⟨.irq .taken :: more, ?_, ?_, ?_, ?_⟩
      · rw [show irqEdges (n + 1) s = irqEdges n (irqEdge s) from rfl, ht, he]; simp
      · simpa [isIrq] using hi
      · simp [hen]
      · simp only [irqEdges, irqEdge_cfg] at hw ⊢
        rcases hw with hw | hw
        · right; rw [hw, he]; rfl
        · right; exact hw
    · refine ⟨.irq .dropped :: more, ?_, ?_, ?_, ?_⟩
      · rw [show irqEdges (n + 1) s = irqEdges n (irqEdge s) from rfl, ht, he]; simp
      · simpa [isIrq] using hi
      · intro _
        obtain ⟨h1, h2⟩ := hd (by simpa using hen)
        refine ⟨?_, by simpa using h2⟩
        simp only [irqEdges]; rw [h1, he]; rfl
      · simp only [irqEdges, irqEdge_cfg] at hw ⊢
        rcases hw with hw | hw
        · left; rw [hw, he]; rfl
        · right; exact hw

/-- An interleaving point adds only interrupt entries to the trace, and leaves WAKE or loads it (R94). -/
theorem interleave_spec (s : State) :
    ∃ more, (interleave s).trace = s.trace ++ more ∧ (∀ e ∈ more, isIrq e = true) ∧
      (s.dev.irqEn = false → (interleave s).wake = s.wake ∧ ∀ e ∈ more, e = .irq .dropped) ∧
      ((interleave s).wake = s.wake ∨ (interleave s).wake = s.cfg.pollReload) := by
  unfold interleave
  split
  · exact ⟨[], by simp⟩
  · rename_i n rest h
    exact irqEdges_spec n (s.setEnv { s.env with edges := rest })

/-! ### Events -/

@[simp] theorem emit_cfg (e : Event) (s : State) : (emit e s).cfg = s.cfg := by
  simp [emit]

@[simp] theorem waitFor_cfg (k : WaitKind) (s : State) : (waitFor k s).cfg = s.cfg := by
  simp [waitFor]

@[simp] theorem emit_snap (e : Event) (s : State) : (emit e s).snap = s.snap := by
  simp [emit]

@[simp] theorem waitFor_snap (k : WaitKind) (s : State) : (waitFor k s).snap = s.snap := by
  simp [waitFor]

@[simp] theorem emit_layer (e : Event) (s : State) : (emit e s).layer = s.layer := by
  simp [emit]

@[simp] theorem waitFor_layer (k : WaitKind) (s : State) : (waitFor k s).layer = s.layer := by
  simp [waitFor]

@[simp] theorem emit_report (e : Event) (s : State) : (emit e s).report = s.report := by
  simp [emit]

@[simp] theorem waitFor_report (k : WaitKind) (s : State) : (waitFor k s).report = s.report := by
  simp [waitFor]

@[simp] theorem emit_dev (e : Event) (s : State) : (emit e s).dev = s.dev := by
  simp [emit]

@[simp] theorem waitFor_dev (k : WaitKind) (s : State) : (waitFor k s).dev = s.dev := by
  simp [waitFor]

@[simp] theorem emit_port (e : Event) (s : State) : (emit e s).port = s.port := by
  simp [emit]

@[simp] theorem waitFor_port (k : WaitKind) (s : State) : (waitFor k s).port = s.port := by
  simp [waitFor]

@[simp] theorem emit_seq (e : Event) (s : State) : (emit e s).seq = s.seq := by
  simp [emit]

@[simp] theorem waitFor_seq (k : WaitKind) (s : State) : (waitFor k s).seq = s.seq := by
  simp [waitFor]

@[simp] theorem emit_wake (e : Event) (s : State) : (emit e s).wake = (interleave s).wake := rfl

@[simp] theorem emit_env (e : Event) (s : State) : (emit e s).env = (interleave s).env := rfl

@[simp] theorem waitFor_env (k : WaitKind) (s : State) : (waitFor k s).env = (interleave s).env := rfl

theorem emit_trace (e : Event) (s : State) : (emit e s).trace = (interleave s).trace ++ [e] := rfl

/-- With no edge scheduled, an event only joins the trace. -/
theorem emit_of_no_edges (e : Event) (s : State) (h : s.env.edges = []) :
    emit e s = s.setTrace (s.trace ++ [e]) := by
  simp [emit, h]

/-- What an event does to the trace and to WAKE: interrupt entries, then the event. -/
theorem emit_spec (e : Event) (s : State) :
    ∃ more, (emit e s).trace = s.trace ++ more ++ [e] ∧ (∀ x ∈ more, isIrq x = true) ∧
      (s.dev.irqEn = false → (emit e s).wake = s.wake ∧ ∀ x ∈ more, x = .irq .dropped) ∧
      ((emit e s).wake = s.wake ∨ (emit e s).wake = s.cfg.pollReload) := by
  obtain ⟨more, ht, hi, hd, hw⟩ := interleave_spec s
  exact ⟨more, by rw [emit_trace, ht], hi, hd, hw⟩

@[simp] theorem setIrqEn_cfg (b : Bool) (s : State) : (setIrqEn b s).cfg = s.cfg := by
  simp [setIrqEn]

@[simp] theorem setIrqEn_snap (b : Bool) (s : State) : (setIrqEn b s).snap = s.snap := by
  simp [setIrqEn]

@[simp] theorem setIrqEn_layer (b : Bool) (s : State) : (setIrqEn b s).layer = s.layer := by
  simp [setIrqEn]

@[simp] theorem setIrqEn_report (b : Bool) (s : State) : (setIrqEn b s).report = s.report := by
  simp [setIrqEn]

@[simp] theorem setIrqEn_port (b : Bool) (s : State) : (setIrqEn b s).port = s.port := by
  simp [setIrqEn]

@[simp] theorem setIrqEn_seq (b : Bool) (s : State) : (setIrqEn b s).seq = s.seq := by
  simp [setIrqEn]

@[simp] theorem setIrqEn_dev (b : Bool) (s : State) : (setIrqEn b s).dev = { s.dev with irqEn := b } := by
  simp [setIrqEn]

@[simp] theorem setIrqEn_env (b : Bool) (s : State) : (setIrqEn b s).env = (interleave s).env := rfl

@[simp] theorem setIrqEn_wake (b : Bool) (s : State) : (setIrqEn b s).wake = (interleave s).wake := rfl

@[simp] theorem setIrqEn_trace (b : Bool) (s : State) : (setIrqEn b s).trace = (interleave s).trace := rfl

@[simp] theorem wakeDecrement_cfg (s : State) : (wakeDecrement s).cfg = s.cfg := by
  simp [wakeDecrement]

@[simp] theorem wakeDecrement_snap (s : State) : (wakeDecrement s).snap = s.snap := by
  simp [wakeDecrement]

@[simp] theorem wakeDecrement_layer (s : State) : (wakeDecrement s).layer = s.layer := by
  simp [wakeDecrement]

@[simp] theorem wakeDecrement_report (s : State) : (wakeDecrement s).report = s.report := by
  simp [wakeDecrement]

@[simp] theorem wakeDecrement_dev (s : State) : (wakeDecrement s).dev = s.dev := by
  simp [wakeDecrement]

@[simp] theorem wakeDecrement_port (s : State) : (wakeDecrement s).port = s.port := by
  simp [wakeDecrement]

@[simp] theorem wakeDecrement_seq (s : State) : (wakeDecrement s).seq = s.seq := by
  simp [wakeDecrement]

@[simp] theorem wakeDecrement_env (s : State) : (wakeDecrement s).env = (interleave s).env := rfl

@[simp] theorem wakeDecrement_trace (s : State) : (wakeDecrement s).trace = (interleave s).trace := rfl

/-! ### The environment's answers -/

@[simp] theorem Env.dropStatus_inputs (e : Env) : e.dropStatus.inputs = e.inputs := by
  unfold Env.dropStatus; split <;> rfl

@[simp] theorem Env.dropStatus_edges (e : Env) : e.dropStatus.edges = e.edges := by
  unfold Env.dropStatus; split <;> rfl

@[simp] theorem Env.dropStatus_readAnswers (e : Env) : e.dropStatus.readAnswers = e.readAnswers := by
  unfold Env.dropStatus; split <;> rfl

@[simp] theorem Env.dropStatus_sendAnswers (e : Env) : e.dropStatus.sendAnswers = e.sendAnswers := by
  unfold Env.dropStatus; split <;> rfl

@[simp] theorem Env.dropStatus_writeAnswers (e : Env) : e.dropStatus.writeAnswers = e.writeAnswers.tail := by
  unfold Env.dropStatus; split <;> simp_all

@[simp] theorem Env.dropRead_inputs (e : Env) : e.dropRead.inputs = e.inputs := by
  unfold Env.dropRead; split <;> rfl

@[simp] theorem Env.dropRead_edges (e : Env) : e.dropRead.edges = e.edges := by
  unfold Env.dropRead; split <;> rfl

@[simp] theorem Env.dropRead_writeAnswers (e : Env) : e.dropRead.writeAnswers = e.writeAnswers := by
  unfold Env.dropRead; split <;> rfl

@[simp] theorem Env.dropRead_sendAnswers (e : Env) : e.dropRead.sendAnswers = e.sendAnswers := by
  unfold Env.dropRead; split <;> rfl

@[simp] theorem Env.dropRead_readAnswers (e : Env) : e.dropRead.readAnswers = e.readAnswers.tail := by
  unfold Env.dropRead; split <;> simp_all

@[simp] theorem Env.dropAccepted_inputs (e : Env) : e.dropAccepted.inputs = e.inputs := by
  unfold Env.dropAccepted; split <;> rfl

@[simp] theorem Env.dropAccepted_edges (e : Env) : e.dropAccepted.edges = e.edges := by
  unfold Env.dropAccepted; split <;> rfl

@[simp] theorem Env.dropAccepted_writeAnswers (e : Env) : e.dropAccepted.writeAnswers = e.writeAnswers := by
  unfold Env.dropAccepted; split <;> rfl

@[simp] theorem Env.dropAccepted_readAnswers (e : Env) : e.dropAccepted.readAnswers = e.readAnswers := by
  unfold Env.dropAccepted; split <;> rfl

@[simp] theorem Env.dropAccepted_sendAnswers (e : Env) : e.dropAccepted.sendAnswers = e.sendAnswers.tail := by
  unfold Env.dropAccepted; split <;> simp_all

/-! ### The bus operations leave the block's registers alone (R91, R130) -/

@[simp] theorem busWrite_cfg (a : BusAddr) (b : List Byte) (s : State) : (busWrite a b s).2.cfg = s.cfg := by
  simp [busWrite]

@[simp] theorem busWrite_snap (a : BusAddr) (b : List Byte) (s : State) : (busWrite a b s).2.snap = s.snap := by
  simp [busWrite]

@[simp] theorem busWrite_layer (a : BusAddr) (b : List Byte) (s : State) : (busWrite a b s).2.layer = s.layer := by
  simp [busWrite]

@[simp] theorem busWrite_report (a : BusAddr) (b : List Byte) (s : State) : (busWrite a b s).2.report = s.report := by
  simp [busWrite]

@[simp] theorem busWrite_dev (a : BusAddr) (b : List Byte) (s : State) : (busWrite a b s).2.dev = s.dev := by
  simp [busWrite]

@[simp] theorem busWrite_port (a : BusAddr) (b : List Byte) (s : State) : (busWrite a b s).2.port = s.port := by
  simp [busWrite]

@[simp] theorem busWrite_seq (a : BusAddr) (b : List Byte) (s : State) : (busWrite a b s).2.seq = s.seq := by
  simp [busWrite]

@[simp] theorem busRead_cfg (a : BusAddr) (n : Nat) (s : State) : (busRead a n s).2.cfg = s.cfg := by
  simp [busRead]

@[simp] theorem busRead_snap (a : BusAddr) (n : Nat) (s : State) : (busRead a n s).2.snap = s.snap := by
  simp [busRead]

@[simp] theorem busRead_layer (a : BusAddr) (n : Nat) (s : State) : (busRead a n s).2.layer = s.layer := by
  simp [busRead]

@[simp] theorem busRead_report (a : BusAddr) (n : Nat) (s : State) : (busRead a n s).2.report = s.report := by
  simp [busRead]

@[simp] theorem busRead_dev (a : BusAddr) (n : Nat) (s : State) : (busRead a n s).2.dev = s.dev := by
  simp [busRead]

@[simp] theorem busRead_port (a : BusAddr) (n : Nat) (s : State) : (busRead a n s).2.port = s.port := by
  simp [busRead]

@[simp] theorem busRead_seq (a : BusAddr) (n : Nat) (s : State) : (busRead a n s).2.seq = s.seq := by
  simp [busRead]

@[simp] theorem hidSend_cfg (b : List Byte) (s : State) : (hidSend b s).2.cfg = s.cfg := by
  simp [hidSend]

@[simp] theorem hidSend_snap (b : List Byte) (s : State) : (hidSend b s).2.snap = s.snap := by
  simp [hidSend]

@[simp] theorem hidSend_layer (b : List Byte) (s : State) : (hidSend b s).2.layer = s.layer := by
  simp [hidSend]

@[simp] theorem hidSend_report (b : List Byte) (s : State) : (hidSend b s).2.report = s.report := by
  simp [hidSend]

@[simp] theorem hidSend_dev (b : List Byte) (s : State) : (hidSend b s).2.dev = s.dev := by
  simp [hidSend]

@[simp] theorem hidSend_port (b : List Byte) (s : State) : (hidSend b s).2.port = s.port := by
  simp [hidSend]

@[simp] theorem hidSend_seq (b : List Byte) (s : State) : (hidSend b s).2.seq = s.seq := by
  simp [hidSend]

@[simp] theorem busWrite_fst (a : BusAddr) (b : List Byte) (s : State) : (busWrite a b s).1 = s.env.nextStatus := rfl

@[simp] theorem busRead_fst (a : BusAddr) (n : Nat) (s : State) : (busRead a n s).1 = s.env.nextRead := rfl

@[simp] theorem hidSend_fst (b : List Byte) (s : State) : (hidSend b s).1 = s.env.nextAccepted := rfl

@[simp] theorem drvWriteByte_cfg (c : Chip) (g v : Byte) (s : State) : (drvWriteByte c g v s).2.cfg = s.cfg := by
  simp [drvWriteByte]

@[simp] theorem drvWriteByte_snap (c : Chip) (g v : Byte) (s : State) : (drvWriteByte c g v s).2.snap = s.snap := by
  simp [drvWriteByte]

@[simp] theorem drvWriteByte_layer (c : Chip) (g v : Byte) (s : State) : (drvWriteByte c g v s).2.layer = s.layer := by
  simp [drvWriteByte]

@[simp] theorem drvWriteByte_report (c : Chip) (g v : Byte) (s : State) : (drvWriteByte c g v s).2.report = s.report := by
  simp [drvWriteByte]

@[simp] theorem drvWriteByte_dev (c : Chip) (g v : Byte) (s : State) : (drvWriteByte c g v s).2.dev = s.dev := by
  simp [drvWriteByte]

@[simp] theorem drvWriteByte_port (c : Chip) (g v : Byte) (s : State) : (drvWriteByte c g v s).2.port = s.port := by
  simp [drvWriteByte]

@[simp] theorem drvWriteByte_seq (c : Chip) (g v : Byte) (s : State) : (drvWriteByte c g v s).2.seq = s.seq := by
  simp [drvWriteByte]

@[simp] theorem drvWriteByte_fst (c : Chip) (g v : Byte) (s : State) : (drvWriteByte c g v s).1 = decide (s.env.nextStatus = 0#8) := rfl

@[simp] theorem drvWriteWord_cfg (c : Chip) (g : Byte) (v : Half) (s : State) : (drvWriteWord c g v s).2.cfg = s.cfg := by
  simp [drvWriteWord]

@[simp] theorem drvWriteWord_snap (c : Chip) (g : Byte) (v : Half) (s : State) : (drvWriteWord c g v s).2.snap = s.snap := by
  simp [drvWriteWord]

@[simp] theorem drvWriteWord_layer (c : Chip) (g : Byte) (v : Half) (s : State) : (drvWriteWord c g v s).2.layer = s.layer := by
  simp [drvWriteWord]

@[simp] theorem drvWriteWord_report (c : Chip) (g : Byte) (v : Half) (s : State) : (drvWriteWord c g v s).2.report = s.report := by
  simp [drvWriteWord]

@[simp] theorem drvWriteWord_dev (c : Chip) (g : Byte) (v : Half) (s : State) : (drvWriteWord c g v s).2.dev = s.dev := by
  simp [drvWriteWord]

@[simp] theorem drvWriteWord_port (c : Chip) (g : Byte) (v : Half) (s : State) : (drvWriteWord c g v s).2.port = s.port := by
  simp [drvWriteWord]

@[simp] theorem drvWriteWord_seq (c : Chip) (g : Byte) (v : Half) (s : State) : (drvWriteWord c g v s).2.seq = s.seq := by
  simp [drvWriteWord]

@[simp] theorem drvWriteWord_fst (c : Chip) (g : Byte) (v : Half) (s : State) : (drvWriteWord c g v s).1 = decide (s.env.nextStatus = 0#8) := rfl

@[simp] theorem drvReadByte_cfg (c : Chip) (g : Byte) (s : State) : (drvReadByte c g s).2.cfg = s.cfg := by
  unfold drvReadByte; dsimp only; split
  · split <;> simp
  · simp

@[simp] theorem drvReadByte_snap (c : Chip) (g : Byte) (s : State) : (drvReadByte c g s).2.snap = s.snap := by
  unfold drvReadByte; dsimp only; split
  · split <;> simp
  · simp

@[simp] theorem drvReadByte_layer (c : Chip) (g : Byte) (s : State) : (drvReadByte c g s).2.layer = s.layer := by
  unfold drvReadByte; dsimp only; split
  · split <;> simp
  · simp

@[simp] theorem drvReadByte_report (c : Chip) (g : Byte) (s : State) : (drvReadByte c g s).2.report = s.report := by
  unfold drvReadByte; dsimp only; split
  · split <;> simp
  · simp

@[simp] theorem drvReadByte_dev (c : Chip) (g : Byte) (s : State) : (drvReadByte c g s).2.dev = s.dev := by
  unfold drvReadByte; dsimp only; split
  · split <;> simp
  · simp

@[simp] theorem drvReadByte_port (c : Chip) (g : Byte) (s : State) : (drvReadByte c g s).2.port = s.port := by
  unfold drvReadByte; dsimp only; split
  · split <;> simp
  · simp

@[simp] theorem drvReadByte_seq (c : Chip) (g : Byte) (s : State) : (drvReadByte c g s).2.seq = s.seq := by
  unfold drvReadByte; dsimp only; split
  · split <;> simp
  · simp

@[simp] theorem drvReadWord_cfg (c : Chip) (g : Byte) (s : State) : (drvReadWord c g s).2.cfg = s.cfg := by
  unfold drvReadWord; dsimp only; split
  · split <;> simp
  · simp

@[simp] theorem drvReadWord_snap (c : Chip) (g : Byte) (s : State) : (drvReadWord c g s).2.snap = s.snap := by
  unfold drvReadWord; dsimp only; split
  · split <;> simp
  · simp

@[simp] theorem drvReadWord_layer (c : Chip) (g : Byte) (s : State) : (drvReadWord c g s).2.layer = s.layer := by
  unfold drvReadWord; dsimp only; split
  · split <;> simp
  · simp

@[simp] theorem drvReadWord_report (c : Chip) (g : Byte) (s : State) : (drvReadWord c g s).2.report = s.report := by
  unfold drvReadWord; dsimp only; split
  · split <;> simp
  · simp

@[simp] theorem drvReadWord_dev (c : Chip) (g : Byte) (s : State) : (drvReadWord c g s).2.dev = s.dev := by
  unfold drvReadWord; dsimp only; split
  · split <;> simp
  · simp

@[simp] theorem drvReadWord_port (c : Chip) (g : Byte) (s : State) : (drvReadWord c g s).2.port = s.port := by
  unfold drvReadWord; dsimp only; split
  · split <;> simp
  · simp

@[simp] theorem drvReadWord_seq (c : Chip) (g : Byte) (s : State) : (drvReadWord c g s).2.seq = s.seq := by
  unfold drvReadWord; dsimp only; split
  · split <;> simp
  · simp

/-! ### How a command ends -/

@[simp] theorem complete_cfg (st : Byte) (r : List Byte) (s : State) : (complete st r s).cfg = s.cfg := rfl

@[simp] theorem complete_snap (st : Byte) (r : List Byte) (s : State) : (complete st r s).snap = s.snap := rfl

@[simp] theorem complete_layer (st : Byte) (r : List Byte) (s : State) : (complete st r s).layer = s.layer := rfl

@[simp] theorem complete_report (st : Byte) (r : List Byte) (s : State) : (complete st r s).report = s.report := rfl

@[simp] theorem complete_dev (st : Byte) (r : List Byte) (s : State) : (complete st r s).dev = s.dev := rfl

@[simp] theorem complete_wake (st : Byte) (r : List Byte) (s : State) : (complete st r s).wake = s.wake := rfl

@[simp] theorem complete_seq (st : Byte) (r : List Byte) (s : State) : (complete st r s).seq = s.seq := rfl

@[simp] theorem complete_trace (st : Byte) (r : List Byte) (s : State) : (complete st r s).trace = s.trace := rfl

@[simp] theorem complete_env (st : Byte) (r : List Byte) (s : State) : (complete st r s).env = s.env := rfl

@[simp] theorem complete_port (st : Byte) (r : List Byte) (s : State) : (complete st r s).port = ⟨st, r⟩ := rfl

@[simp] theorem raise_eq (c : Byte) (s : State) : raise c s = complete c [] s := rfl

@[simp] theorem illegalCommand_eq (s : State) : illegalCommand s = complete statusIllegal [] s := rfl

end Sys2Proof.Machine
end

