-- ==== Sys2Proof/Laws/Units.lean ====
section
/-! SUPPORT. What each sub-unit leaves alone (spec/10_state.md R52), one lemma per operation and field. -/

namespace Sys2Proof.Machine

/-- A fold keeps what each of its steps keeps. -/
theorem foldl_keeps {α β : Type} (f : State → β) (g : State → α → State) (h : ∀ s a, f (g s a) = f s)
    (l : List α) (s : State) : f (l.foldl g s) = f s := by
  induction l generalizing s with
  | nil => rfl
  | cons a l ih => rw [List.foldl_cons, ih, h]

/-! ### Scanner -/

@[simp] theorem storeRaw_cfg (i : Nat) (v : Byte) (s : State) : (storeRaw i v s).cfg = s.cfg := by
  rfl

@[simp] theorem storeRaw_layer (i : Nat) (v : Byte) (s : State) : (storeRaw i v s).layer = s.layer := by
  rfl

@[simp] theorem storeRaw_report (i : Nat) (v : Byte) (s : State) : (storeRaw i v s).report = s.report := by
  rfl

@[simp] theorem storeRaw_dev (i : Nat) (v : Byte) (s : State) : (storeRaw i v s).dev = s.dev := by
  rfl

@[simp] theorem storeRaw_wake (i : Nat) (v : Byte) (s : State) : (storeRaw i v s).wake = s.wake := by
  rfl

@[simp] theorem storeRaw_port (i : Nat) (v : Byte) (s : State) : (storeRaw i v s).port = s.port := by
  rfl

@[simp] theorem storeRaw_seq (i : Nat) (v : Byte) (s : State) : (storeRaw i v s).seq = s.seq := by
  rfl

@[simp] theorem storeRaw_trace (i : Nat) (v : Byte) (s : State) : (storeRaw i v s).trace = s.trace := by
  rfl

@[simp] theorem storeRaw_env (i : Nat) (v : Byte) (s : State) : (storeRaw i v s).env = s.env := by
  rfl

@[simp] theorem storeRaw_snap (i : Nat) (v : Byte) (s : State) : (storeRaw i v s).snap = { s.snap with raw := s.snap.raw.set i v } := by
  rfl

@[simp] theorem scanAt_cfg (st : ScanState) (c : Chip) (i : Nat) (s : State) : (scanAt st c i s).cfg = s.cfg := by
  rfl

@[simp] theorem scanAt_snap (st : ScanState) (c : Chip) (i : Nat) (s : State) : (scanAt st c i s).snap = s.snap := by
  rfl

@[simp] theorem scanAt_layer (st : ScanState) (c : Chip) (i : Nat) (s : State) : (scanAt st c i s).layer = s.layer := by
  rfl

@[simp] theorem scanAt_report (st : ScanState) (c : Chip) (i : Nat) (s : State) : (scanAt st c i s).report = s.report := by
  rfl

@[simp] theorem scanAt_dev (st : ScanState) (c : Chip) (i : Nat) (s : State) : (scanAt st c i s).dev = s.dev := by
  rfl

@[simp] theorem scanAt_wake (st : ScanState) (c : Chip) (i : Nat) (s : State) : (scanAt st c i s).wake = s.wake := by
  rfl

@[simp] theorem scanAt_port (st : ScanState) (c : Chip) (i : Nat) (s : State) : (scanAt st c i s).port = s.port := by
  rfl

@[simp] theorem scanAt_trace (st : ScanState) (c : Chip) (i : Nat) (s : State) : (scanAt st c i s).trace = s.trace := by
  rfl

@[simp] theorem scanAt_env (st : ScanState) (c : Chip) (i : Nat) (s : State) : (scanAt st c i s).env = s.env := by
  rfl

@[simp] theorem scanAt_seq (st : ScanState) (c : Chip) (i : Nat) (s : State) : (scanAt st c i s).seq = { s.seq with scanState := st, scanChip := c, scanCol := i } := by
  rfl

@[simp] theorem selectWrite_cfg (c : Chip) (i : Nat) (s : State) : (selectWrite c i s).2.cfg = s.cfg := by
  simp [selectWrite]

@[simp] theorem parkWrite_cfg (c : Chip) (s : State) : (parkWrite c s).cfg = s.cfg := by
  simp [parkWrite]

@[simp] theorem selectWrite_snap (c : Chip) (i : Nat) (s : State) : (selectWrite c i s).2.snap = s.snap := by
  simp [selectWrite]

@[simp] theorem parkWrite_snap (c : Chip) (s : State) : (parkWrite c s).snap = s.snap := by
  simp [parkWrite]

@[simp] theorem selectWrite_layer (c : Chip) (i : Nat) (s : State) : (selectWrite c i s).2.layer = s.layer := by
  simp [selectWrite]

@[simp] theorem parkWrite_layer (c : Chip) (s : State) : (parkWrite c s).layer = s.layer := by
  simp [parkWrite]

@[simp] theorem selectWrite_report (c : Chip) (i : Nat) (s : State) : (selectWrite c i s).2.report = s.report := by
  simp [selectWrite]

@[simp] theorem parkWrite_report (c : Chip) (s : State) : (parkWrite c s).report = s.report := by
  simp [parkWrite]

@[simp] theorem selectWrite_dev (c : Chip) (i : Nat) (s : State) : (selectWrite c i s).2.dev = s.dev := by
  simp [selectWrite]

@[simp] theorem parkWrite_dev (c : Chip) (s : State) : (parkWrite c s).dev = s.dev := by
  simp [parkWrite]

@[simp] theorem selectWrite_port (c : Chip) (i : Nat) (s : State) : (selectWrite c i s).2.port = s.port := by
  simp [selectWrite]

@[simp] theorem parkWrite_port (c : Chip) (s : State) : (parkWrite c s).port = s.port := by
  simp [parkWrite]

@[simp] theorem selectWrite_seq (c : Chip) (i : Nat) (s : State) : (selectWrite c i s).2.seq = s.seq := by
  simp [selectWrite]

@[simp] theorem parkWrite_seq (c : Chip) (s : State) : (parkWrite c s).seq = s.seq := by
  simp [parkWrite]

@[simp] theorem sampleStore_cfg (c : Chip) (i : Nat) (s : State) : (sampleStore c i s).cfg = s.cfg := by
  simp [sampleStore]

@[simp] theorem sampleStore_layer (c : Chip) (i : Nat) (s : State) : (sampleStore c i s).layer = s.layer := by
  simp [sampleStore]

@[simp] theorem sampleStore_report (c : Chip) (i : Nat) (s : State) : (sampleStore c i s).report = s.report := by
  simp [sampleStore]

@[simp] theorem sampleStore_dev (c : Chip) (i : Nat) (s : State) : (sampleStore c i s).dev = s.dev := by
  simp [sampleStore]

@[simp] theorem sampleStore_port (c : Chip) (i : Nat) (s : State) : (sampleStore c i s).port = s.port := by
  simp [sampleStore]

@[simp] theorem sampleStore_seq (c : Chip) (i : Nat) (s : State) : (sampleStore c i s).seq = s.seq := by
  simp [sampleStore]

@[simp] theorem sampleStore_snap_hist (c : Chip) (i : Nat) (s : State) : (sampleStore c i s).snap.hist = s.snap.hist := by
  simp [sampleStore]

@[simp] theorem sampleStore_snap_stable (c : Chip) (i : Nat) (s : State) : (sampleStore c i s).snap.stable = s.snap.stable := by
  simp [sampleStore]

@[simp] theorem sampleStore_snap_stablePrev (c : Chip) (i : Nat) (s : State) : (sampleStore c i s).snap.stablePrev = s.snap.stablePrev := by
  simp [sampleStore]

@[simp] theorem sampleStore_snap_pending (c : Chip) (i : Nat) (s : State) : (sampleStore c i s).snap.pending = s.snap.pending := by
  simp [sampleStore]

@[simp] theorem scanColumn_cfg (c : Chip) (s : State) (i : Nat) : (scanColumn c s i).cfg = s.cfg := by
  unfold scanColumn; dsimp only; split <;> simp

@[simp] theorem scanColumn_layer (c : Chip) (s : State) (i : Nat) : (scanColumn c s i).layer = s.layer := by
  unfold scanColumn; dsimp only; split <;> simp

@[simp] theorem scanColumn_report (c : Chip) (s : State) (i : Nat) : (scanColumn c s i).report = s.report := by
  unfold scanColumn; dsimp only; split <;> simp

@[simp] theorem scanColumn_dev (c : Chip) (s : State) (i : Nat) : (scanColumn c s i).dev = s.dev := by
  unfold scanColumn; dsimp only; split <;> simp

@[simp] theorem scanColumn_port (c : Chip) (s : State) (i : Nat) : (scanColumn c s i).port = s.port := by
  unfold scanColumn; dsimp only; split <;> simp

@[simp] theorem scanColumn_snap_hist (c : Chip) (s : State) (i : Nat) : (scanColumn c s i).snap.hist = s.snap.hist := by
  unfold scanColumn; dsimp only; split <;> simp

@[simp] theorem scanColumn_snap_stable (c : Chip) (s : State) (i : Nat) : (scanColumn c s i).snap.stable = s.snap.stable := by
  unfold scanColumn; dsimp only; split <;> simp

@[simp] theorem scanColumn_snap_stablePrev (c : Chip) (s : State) (i : Nat) : (scanColumn c s i).snap.stablePrev = s.snap.stablePrev := by
  unfold scanColumn; dsimp only; split <;> simp

@[simp] theorem scanColumn_snap_pending (c : Chip) (s : State) (i : Nat) : (scanColumn c s i).snap.pending = s.snap.pending := by
  unfold scanColumn; dsimp only; split <;> simp

@[simp] theorem scanColumn_seq_pipePhase (c : Chip) (s : State) (i : Nat) : (scanColumn c s i).seq.pipePhase = s.seq.pipePhase := by
  unfold scanColumn; dsimp only; split <;> simp

@[simp] theorem scanColumn_seq_passCount (c : Chip) (s : State) (i : Nat) : (scanColumn c s i).seq.passCount = s.seq.passCount := by
  unfold scanColumn; dsimp only; split <;> simp

@[simp] theorem scanColumns_cfg (c : Chip) (l : List Nat) (s : State) : (l.foldl (scanColumn c) s).cfg = s.cfg := by
  exact foldl_keeps (fun t => t.cfg) (scanColumn c) (scanColumn_cfg c) l s

@[simp] theorem scanColumns_layer (c : Chip) (l : List Nat) (s : State) : (l.foldl (scanColumn c) s).layer = s.layer := by
  exact foldl_keeps (fun t => t.layer) (scanColumn c) (scanColumn_layer c) l s

@[simp] theorem scanColumns_report (c : Chip) (l : List Nat) (s : State) : (l.foldl (scanColumn c) s).report = s.report := by
  exact foldl_keeps (fun t => t.report) (scanColumn c) (scanColumn_report c) l s

@[simp] theorem scanColumns_dev (c : Chip) (l : List Nat) (s : State) : (l.foldl (scanColumn c) s).dev = s.dev := by
  exact foldl_keeps (fun t => t.dev) (scanColumn c) (scanColumn_dev c) l s

@[simp] theorem scanColumns_port (c : Chip) (l : List Nat) (s : State) : (l.foldl (scanColumn c) s).port = s.port := by
  exact foldl_keeps (fun t => t.port) (scanColumn c) (scanColumn_port c) l s

@[simp] theorem scanColumns_snap_hist (c : Chip) (l : List Nat) (s : State) : (l.foldl (scanColumn c) s).snap.hist = s.snap.hist := by
  exact foldl_keeps (fun t => t.snap.hist) (scanColumn c) (scanColumn_snap_hist c) l s

@[simp] theorem scanColumns_snap_stable (c : Chip) (l : List Nat) (s : State) : (l.foldl (scanColumn c) s).snap.stable = s.snap.stable := by
  exact foldl_keeps (fun t => t.snap.stable) (scanColumn c) (scanColumn_snap_stable c) l s

@[simp] theorem scanColumns_snap_stablePrev (c : Chip) (l : List Nat) (s : State) : (l.foldl (scanColumn c) s).snap.stablePrev = s.snap.stablePrev := by
  exact foldl_keeps (fun t => t.snap.stablePrev) (scanColumn c) (scanColumn_snap_stablePrev c) l s

@[simp] theorem scanColumns_snap_pending (c : Chip) (l : List Nat) (s : State) : (l.foldl (scanColumn c) s).snap.pending = s.snap.pending := by
  exact foldl_keeps (fun t => t.snap.pending) (scanColumn c) (scanColumn_snap_pending c) l s

@[simp] theorem scanColumns_seq_pipePhase (c : Chip) (l : List Nat) (s : State) : (l.foldl (scanColumn c) s).seq.pipePhase = s.seq.pipePhase := by
  exact foldl_keeps (fun t => t.seq.pipePhase) (scanColumn c) (scanColumn_seq_pipePhase c) l s

@[simp] theorem scanColumns_seq_passCount (c : Chip) (l : List Nat) (s : State) : (l.foldl (scanColumn c) s).seq.passCount = s.seq.passCount := by
  exact foldl_keeps (fun t => t.seq.passCount) (scanColumn c) (scanColumn_seq_passCount c) l s

@[simp] theorem scanChip_cfg (c : Chip) (s : State) : (scanChip c s).cfg = s.cfg := by
  unfold scanChip; split <;> simp

@[simp] theorem scanChip_layer (c : Chip) (s : State) : (scanChip c s).layer = s.layer := by
  unfold scanChip; split <;> simp

@[simp] theorem scanChip_report (c : Chip) (s : State) : (scanChip c s).report = s.report := by
  unfold scanChip; split <;> simp

@[simp] theorem scanChip_dev (c : Chip) (s : State) : (scanChip c s).dev = s.dev := by
  unfold scanChip; split <;> simp

@[simp] theorem scanChip_port (c : Chip) (s : State) : (scanChip c s).port = s.port := by
  unfold scanChip; split <;> simp

@[simp] theorem scanChip_snap_hist (c : Chip) (s : State) : (scanChip c s).snap.hist = s.snap.hist := by
  unfold scanChip; split <;> simp

@[simp] theorem scanChip_snap_stable (c : Chip) (s : State) : (scanChip c s).snap.stable = s.snap.stable := by
  unfold scanChip; split <;> simp

@[simp] theorem scanChip_snap_stablePrev (c : Chip) (s : State) : (scanChip c s).snap.stablePrev = s.snap.stablePrev := by
  unfold scanChip; split <;> simp

@[simp] theorem scanChip_snap_pending (c : Chip) (s : State) : (scanChip c s).snap.pending = s.snap.pending := by
  unfold scanChip; split <;> simp

@[simp] theorem scanChip_seq_pipePhase (c : Chip) (s : State) : (scanChip c s).seq.pipePhase = s.seq.pipePhase := by
  unfold scanChip; split <;> simp

@[simp] theorem scanChip_seq_passCount (c : Chip) (s : State) : (scanChip c s).seq.passCount = s.seq.passCount := by
  unfold scanChip; split <;> simp

@[simp] theorem beginScan_cfg (s : State) : (beginScan s).cfg = s.cfg := by
  simp [beginScan]

@[simp] theorem beginScan_layer (s : State) : (beginScan s).layer = s.layer := by
  simp [beginScan]

@[simp] theorem beginScan_report (s : State) : (beginScan s).report = s.report := by
  simp [beginScan]

@[simp] theorem beginScan_port (s : State) : (beginScan s).port = s.port := by
  simp [beginScan]

@[simp] theorem beginScan_snap_hist (s : State) : (beginScan s).snap.hist = s.snap.hist := by
  simp [beginScan]

@[simp] theorem beginScan_snap_stable (s : State) : (beginScan s).snap.stable = s.snap.stable := by
  simp [beginScan]

@[simp] theorem beginScan_snap_stablePrev (s : State) : (beginScan s).snap.stablePrev = s.snap.stablePrev := by
  simp [beginScan]

@[simp] theorem beginScan_snap_pending (s : State) : (beginScan s).snap.pending = s.snap.pending := by
  simp [beginScan]

@[simp] theorem beginScan_seq_pipePhase (s : State) : (beginScan s).seq.pipePhase = s.seq.pipePhase := by
  simp [beginScan]

@[simp] theorem beginScan_seq_passCount (s : State) : (beginScan s).seq.passCount = s.seq.passCount := by
  simp [beginScan]

@[simp] theorem endScan_cfg (s : State) : (endScan s).cfg = s.cfg := by
  simp [endScan]

@[simp] theorem endScan_layer (s : State) : (endScan s).layer = s.layer := by
  simp [endScan]

@[simp] theorem endScan_report (s : State) : (endScan s).report = s.report := by
  simp [endScan]

@[simp] theorem endScan_port (s : State) : (endScan s).port = s.port := by
  simp [endScan]

@[simp] theorem endScan_snap_hist (s : State) : (endScan s).snap.hist = s.snap.hist := by
  simp [endScan]

@[simp] theorem endScan_snap_stable (s : State) : (endScan s).snap.stable = s.snap.stable := by
  simp [endScan]

@[simp] theorem endScan_snap_stablePrev (s : State) : (endScan s).snap.stablePrev = s.snap.stablePrev := by
  simp [endScan]

@[simp] theorem endScan_snap_pending (s : State) : (endScan s).snap.pending = s.snap.pending := by
  simp [endScan]

@[simp] theorem endScan_seq_pipePhase (s : State) : (endScan s).seq.pipePhase = s.seq.pipePhase := by
  simp [endScan]

@[simp] theorem endScan_seq_passCount (s : State) : (endScan s).seq.passCount = s.seq.passCount := by
  simp [endScan]

@[simp] theorem beginScan_dev (s : State) : (beginScan s).dev = { s.dev with irqEn := false } := by
  simp [beginScan]

@[simp] theorem endScan_dev (s : State) : (endScan s).dev = { s.dev with irqEn := s.dev.initialized } := by
  simp [endScan]

@[simp] theorem endScan_scanState (s : State) : (endScan s).seq.scanState = .idle := by
  simp [endScan]

@[simp] theorem beginScan_raw (s : State) : (beginScan s).snap.raw = s.cfg.zeroSnap := by
  simp [beginScan]

@[simp] theorem endScan_snap (s : State) : (endScan s).snap = s.snap := by
  simp [endScan]

@[simp] theorem scanBody_cfg (s : State) : (scanBody s).cfg = s.cfg := by
  simp [scanBody]

@[simp] theorem scanBody_layer (s : State) : (scanBody s).layer = s.layer := by
  simp [scanBody]

@[simp] theorem scanBody_report (s : State) : (scanBody s).report = s.report := by
  simp [scanBody]

@[simp] theorem scanBody_port (s : State) : (scanBody s).port = s.port := by
  simp [scanBody]

@[simp] theorem scanBody_snap_hist (s : State) : (scanBody s).snap.hist = s.snap.hist := by
  simp [scanBody]

@[simp] theorem scanBody_snap_stable (s : State) : (scanBody s).snap.stable = s.snap.stable := by
  simp [scanBody]

@[simp] theorem scanBody_snap_stablePrev (s : State) : (scanBody s).snap.stablePrev = s.snap.stablePrev := by
  simp [scanBody]

@[simp] theorem scanBody_snap_pending (s : State) : (scanBody s).snap.pending = s.snap.pending := by
  simp [scanBody]

@[simp] theorem scanBody_seq_pipePhase (s : State) : (scanBody s).seq.pipePhase = s.seq.pipePhase := by
  simp [scanBody]

@[simp] theorem scanBody_seq_passCount (s : State) : (scanBody s).seq.passCount = s.seq.passCount := by
  simp [scanBody]

@[simp] theorem scanBody_dev (s : State) : (scanBody s).dev = { s.dev with irqEn := s.dev.initialized } := by
  simp [scanBody]

@[simp] theorem scanBody_scanState (s : State) : (scanBody s).seq.scanState = .idle := by
  simp [scanBody]

/-! ### Initialization -/

@[simp] theorem configure_cfg (c : Chip) (l : List (Byte × Byte)) (s : State) : (configure c l s).2.cfg = s.cfg := by
  induction l generalizing s with
  | nil => rfl
  | cons p l ih =>
    simp only [configure]
    split <;> simp [ih]

@[simp] theorem configure_snap (c : Chip) (l : List (Byte × Byte)) (s : State) : (configure c l s).2.snap = s.snap := by
  induction l generalizing s with
  | nil => rfl
  | cons p l ih =>
    simp only [configure]
    split <;> simp [ih]

@[simp] theorem configure_layer (c : Chip) (l : List (Byte × Byte)) (s : State) : (configure c l s).2.layer = s.layer := by
  induction l generalizing s with
  | nil => rfl
  | cons p l ih =>
    simp only [configure]
    split <;> simp [ih]

@[simp] theorem configure_report (c : Chip) (l : List (Byte × Byte)) (s : State) : (configure c l s).2.report = s.report := by
  induction l generalizing s with
  | nil => rfl
  | cons p l ih =>
    simp only [configure]
    split <;> simp [ih]

@[simp] theorem configure_port (c : Chip) (l : List (Byte × Byte)) (s : State) : (configure c l s).2.port = s.port := by
  induction l generalizing s with
  | nil => rfl
  | cons p l ih =>
    simp only [configure]
    split <;> simp [ih]

@[simp] theorem configure_seq (c : Chip) (l : List (Byte × Byte)) (s : State) : (configure c l s).2.seq = s.seq := by
  induction l generalizing s with
  | nil => rfl
  | cons p l ih =>
    simp only [configure]
    split <;> simp [ih]

@[simp] theorem configure_dev (c : Chip) (l : List (Byte × Byte)) (s : State) : (configure c l s).2.dev = s.dev := by
  induction l generalizing s with
  | nil => rfl
  | cons p l ih =>
    simp only [configure]
    split <;> simp [ih]

@[simp] theorem initChip_cfg (c : Chip) (s : State) : (initChip c s).cfg = s.cfg := by
  unfold initChip; dsimp only; split <;> simp

@[simp] theorem initChip_snap (c : Chip) (s : State) : (initChip c s).snap = s.snap := by
  unfold initChip; dsimp only; split <;> simp

@[simp] theorem initChip_layer (c : Chip) (s : State) : (initChip c s).layer = s.layer := by
  unfold initChip; dsimp only; split <;> simp

@[simp] theorem initChip_report (c : Chip) (s : State) : (initChip c s).report = s.report := by
  unfold initChip; dsimp only; split <;> simp

@[simp] theorem initChip_port (c : Chip) (s : State) : (initChip c s).port = s.port := by
  unfold initChip; dsimp only; split <;> simp

@[simp] theorem initChip_seq (c : Chip) (s : State) : (initChip c s).seq = s.seq := by
  unfold initChip; dsimp only; split <;> simp

@[simp] theorem initBody_cfg (s : State) : (initBody s).cfg = s.cfg := by
  simp [initBody]

@[simp] theorem initBody_snap (s : State) : (initBody s).snap = s.snap := by
  simp [initBody]

@[simp] theorem initBody_layer (s : State) : (initBody s).layer = s.layer := by
  simp [initBody]

@[simp] theorem initBody_report (s : State) : (initBody s).report = s.report := by
  simp [initBody]

@[simp] theorem initBody_port (s : State) : (initBody s).port = s.port := by
  simp [initBody]

@[simp] theorem initBody_seq (s : State) : (initBody s).seq = s.seq := by
  simp [initBody]

@[simp] theorem initBody_irqEn (s : State) : (initBody s).dev.irqEn = true := by
  simp [initBody]

@[simp] theorem initBody_initialized (s : State) : (initBody s).dev.initialized = true := by
  simp [initBody]

/-! ### Filter -/

@[simp] theorem filterBody_cfg (s : State) : (filterBody s).cfg = s.cfg := by
  rfl

@[simp] theorem filterBody_layer (s : State) : (filterBody s).layer = s.layer := by
  rfl

@[simp] theorem filterBody_report (s : State) : (filterBody s).report = s.report := by
  rfl

@[simp] theorem filterBody_dev (s : State) : (filterBody s).dev = s.dev := by
  rfl

@[simp] theorem filterBody_wake (s : State) : (filterBody s).wake = s.wake := by
  rfl

@[simp] theorem filterBody_port (s : State) : (filterBody s).port = s.port := by
  rfl

@[simp] theorem filterBody_seq (s : State) : (filterBody s).seq = s.seq := by
  rfl

@[simp] theorem filterBody_trace (s : State) : (filterBody s).trace = s.trace := by
  rfl

@[simp] theorem filterBody_env (s : State) : (filterBody s).env = s.env := by
  rfl

@[simp] theorem filterBody_snap (s : State) : (filterBody s).snap = filterRegs s.cfg s.snap := by
  rfl

@[simp] theorem filterRegs_raw (p : Params) (r : SnapRegs) : (filterRegs p r).raw = r.raw := by
  rfl

@[simp] theorem filterRegs_stablePrev (p : Params) (r : SnapRegs) : (filterRegs p r).stablePrev = r.stablePrev := by
  rfl

/-! ### Report assembler -/

@[simp] theorem addKey_cfg (k : Byte) (s : State) : (addKey k s).cfg = s.cfg := by
  rfl

@[simp] theorem addKey_snap (k : Byte) (s : State) : (addKey k s).snap = s.snap := by
  rfl

@[simp] theorem addKey_layer (k : Byte) (s : State) : (addKey k s).layer = s.layer := by
  rfl

@[simp] theorem addKey_dev (k : Byte) (s : State) : (addKey k s).dev = s.dev := by
  rfl

@[simp] theorem addKey_wake (k : Byte) (s : State) : (addKey k s).wake = s.wake := by
  rfl

@[simp] theorem addKey_port (k : Byte) (s : State) : (addKey k s).port = s.port := by
  rfl

@[simp] theorem addKey_seq (k : Byte) (s : State) : (addKey k s).seq = s.seq := by
  rfl

@[simp] theorem addKey_trace (k : Byte) (s : State) : (addKey k s).trace = s.trace := by
  rfl

@[simp] theorem addKey_env (k : Byte) (s : State) : (addKey k s).env = s.env := by
  rfl

@[simp] theorem addKey_report (k : Byte) (s : State) : (addKey k s).report = addKeyReport s.cfg k s.report := by
  rfl

@[simp] theorem addKeyReport_lastSendOk (p : Params) (k : Byte) (r : Report) : (addKeyReport p k r).lastSendOk = r.lastSendOk := by
  unfold addKeyReport; split
  · rfl
  · split <;> rfl

@[simp] theorem removeKey_cfg (k : Byte) (s : State) : (removeKey k s).cfg = s.cfg := by
  rfl

@[simp] theorem removeKey_snap (k : Byte) (s : State) : (removeKey k s).snap = s.snap := by
  rfl

@[simp] theorem removeKey_layer (k : Byte) (s : State) : (removeKey k s).layer = s.layer := by
  rfl

@[simp] theorem removeKey_dev (k : Byte) (s : State) : (removeKey k s).dev = s.dev := by
  rfl

@[simp] theorem removeKey_wake (k : Byte) (s : State) : (removeKey k s).wake = s.wake := by
  rfl

@[simp] theorem removeKey_port (k : Byte) (s : State) : (removeKey k s).port = s.port := by
  rfl

@[simp] theorem removeKey_seq (k : Byte) (s : State) : (removeKey k s).seq = s.seq := by
  rfl

@[simp] theorem removeKey_trace (k : Byte) (s : State) : (removeKey k s).trace = s.trace := by
  rfl

@[simp] theorem removeKey_env (k : Byte) (s : State) : (removeKey k s).env = s.env := by
  rfl

@[simp] theorem removeKey_report (k : Byte) (s : State) : (removeKey k s).report = removeKeyReport s.cfg k s.report := by
  rfl

@[simp] theorem removeKeyReport_lastSendOk (p : Params) (k : Byte) (r : Report) : (removeKeyReport p k r).lastSendOk = r.lastSendOk := by
  unfold removeKeyReport; split
  · rfl
  · split <;> rfl

@[simp] theorem transmit_cfg (s : State) : (transmit s).2.cfg = s.cfg := by
  simp [transmit]

@[simp] theorem transmit_snap (s : State) : (transmit s).2.snap = s.snap := by
  simp [transmit]

@[simp] theorem transmit_layer (s : State) : (transmit s).2.layer = s.layer := by
  simp [transmit]

@[simp] theorem transmit_dev (s : State) : (transmit s).2.dev = s.dev := by
  simp [transmit]

@[simp] theorem transmit_port (s : State) : (transmit s).2.port = s.port := by
  simp [transmit]

@[simp] theorem transmit_seq (s : State) : (transmit s).2.seq = s.seq := by
  simp [transmit]

@[simp] theorem transmit_fst (s : State) : (transmit s).1 = s.env.nextAccepted := by
  rfl

@[simp] theorem transmit_report (s : State) : (transmit s).2.report = { s.report with lastSendOk := s.env.nextAccepted, dirty := false } := by
  simp [transmit]

/-! ### Keymap and edge dispatchers -/

@[simp] theorem invokeAction_cfg (a : Action) (p : Bool) (s : State) : (invokeAction a p s).cfg = s.cfg := by
  cases a <;> simp [invokeAction, layerSwitch, otherAction]

@[simp] theorem pressKey_cfg (r c : Nat) (s : State) : (pressKey r c s).cfg = s.cfg := by
  unfold pressKey; dsimp only; split <;> simp

@[simp] theorem releaseOnLayer_cfg (r c : Nat) (s : State) (l : Nat) : (releaseOnLayer r c s l).cfg = s.cfg := by
  unfold releaseOnLayer; dsimp only; split <;> simp

@[simp] theorem releaseKey_cfg (r c : Nat) (s : State) : (releaseKey r c s).cfg = s.cfg := by
  exact foldl_keeps (fun t => t.cfg) (releaseOnLayer r c) (releaseOnLayer_cfg r c) _ s

@[simp] theorem dispatchEvent_cfg (r c : Nat) (p : Bool) (s : State) : (dispatchEvent r c p s).cfg = s.cfg := by
  unfold dispatchEvent; split
  · simp
  · split <;> simp

@[simp] theorem emitAndDispatch_cfg (s : State) (e : KeyEvent) : (emitAndDispatch s e).cfg = s.cfg := by
  simp [emitAndDispatch]

@[simp] theorem dispatchEvents_cfg (l : List KeyEvent) (s : State) : (l.foldl emitAndDispatch s).cfg = s.cfg := by
  exact foldl_keeps (fun t => t.cfg) emitAndDispatch emitAndDispatch_cfg l s

@[simp] theorem invokeAction_snap (a : Action) (p : Bool) (s : State) : (invokeAction a p s).snap = s.snap := by
  cases a <;> simp [invokeAction, layerSwitch, otherAction]

@[simp] theorem pressKey_snap (r c : Nat) (s : State) : (pressKey r c s).snap = s.snap := by
  unfold pressKey; dsimp only; split <;> simp

@[simp] theorem releaseOnLayer_snap (r c : Nat) (s : State) (l : Nat) : (releaseOnLayer r c s l).snap = s.snap := by
  unfold releaseOnLayer; dsimp only; split <;> simp

@[simp] theorem releaseKey_snap (r c : Nat) (s : State) : (releaseKey r c s).snap = s.snap := by
  exact foldl_keeps (fun t => t.snap) (releaseOnLayer r c) (releaseOnLayer_snap r c) _ s

@[simp] theorem dispatchEvent_snap (r c : Nat) (p : Bool) (s : State) : (dispatchEvent r c p s).snap = s.snap := by
  unfold dispatchEvent; split
  · simp
  · split <;> simp

@[simp] theorem emitAndDispatch_snap (s : State) (e : KeyEvent) : (emitAndDispatch s e).snap = s.snap := by
  simp [emitAndDispatch]

@[simp] theorem dispatchEvents_snap (l : List KeyEvent) (s : State) : (l.foldl emitAndDispatch s).snap = s.snap := by
  exact foldl_keeps (fun t => t.snap) emitAndDispatch emitAndDispatch_snap l s

@[simp] theorem invokeAction_dev (a : Action) (p : Bool) (s : State) : (invokeAction a p s).dev = s.dev := by
  cases a <;> simp [invokeAction, layerSwitch, otherAction]

@[simp] theorem pressKey_dev (r c : Nat) (s : State) : (pressKey r c s).dev = s.dev := by
  unfold pressKey; dsimp only; split <;> simp

@[simp] theorem releaseOnLayer_dev (r c : Nat) (s : State) (l : Nat) : (releaseOnLayer r c s l).dev = s.dev := by
  unfold releaseOnLayer; dsimp only; split <;> simp

@[simp] theorem releaseKey_dev (r c : Nat) (s : State) : (releaseKey r c s).dev = s.dev := by
  exact foldl_keeps (fun t => t.dev) (releaseOnLayer r c) (releaseOnLayer_dev r c) _ s

@[simp] theorem dispatchEvent_dev (r c : Nat) (p : Bool) (s : State) : (dispatchEvent r c p s).dev = s.dev := by
  unfold dispatchEvent; split
  · simp
  · split <;> simp

@[simp] theorem emitAndDispatch_dev (s : State) (e : KeyEvent) : (emitAndDispatch s e).dev = s.dev := by
  simp [emitAndDispatch]

@[simp] theorem dispatchEvents_dev (l : List KeyEvent) (s : State) : (l.foldl emitAndDispatch s).dev = s.dev := by
  exact foldl_keeps (fun t => t.dev) emitAndDispatch emitAndDispatch_dev l s

@[simp] theorem invokeAction_port (a : Action) (p : Bool) (s : State) : (invokeAction a p s).port = s.port := by
  cases a <;> simp [invokeAction, layerSwitch, otherAction]

@[simp] theorem pressKey_port (r c : Nat) (s : State) : (pressKey r c s).port = s.port := by
  unfold pressKey; dsimp only; split <;> simp

@[simp] theorem releaseOnLayer_port (r c : Nat) (s : State) (l : Nat) : (releaseOnLayer r c s l).port = s.port := by
  unfold releaseOnLayer; dsimp only; split <;> simp

@[simp] theorem releaseKey_port (r c : Nat) (s : State) : (releaseKey r c s).port = s.port := by
  exact foldl_keeps (fun t => t.port) (releaseOnLayer r c) (releaseOnLayer_port r c) _ s

@[simp] theorem dispatchEvent_port (r c : Nat) (p : Bool) (s : State) : (dispatchEvent r c p s).port = s.port := by
  unfold dispatchEvent; split
  · simp
  · split <;> simp

@[simp] theorem emitAndDispatch_port (s : State) (e : KeyEvent) : (emitAndDispatch s e).port = s.port := by
  simp [emitAndDispatch]

@[simp] theorem dispatchEvents_port (l : List KeyEvent) (s : State) : (l.foldl emitAndDispatch s).port = s.port := by
  exact foldl_keeps (fun t => t.port) emitAndDispatch emitAndDispatch_port l s

@[simp] theorem invokeAction_seq (a : Action) (p : Bool) (s : State) : (invokeAction a p s).seq = s.seq := by
  cases a <;> simp [invokeAction, layerSwitch, otherAction]

@[simp] theorem pressKey_seq (r c : Nat) (s : State) : (pressKey r c s).seq = s.seq := by
  unfold pressKey; dsimp only; split <;> simp

@[simp] theorem releaseOnLayer_seq (r c : Nat) (s : State) (l : Nat) : (releaseOnLayer r c s l).seq = s.seq := by
  unfold releaseOnLayer; dsimp only; split <;> simp

@[simp] theorem releaseKey_seq (r c : Nat) (s : State) : (releaseKey r c s).seq = s.seq := by
  exact foldl_keeps (fun t => t.seq) (releaseOnLayer r c) (releaseOnLayer_seq r c) _ s

@[simp] theorem dispatchEvent_seq (r c : Nat) (p : Bool) (s : State) : (dispatchEvent r c p s).seq = s.seq := by
  unfold dispatchEvent; split
  · simp
  · split <;> simp

@[simp] theorem emitAndDispatch_seq (s : State) (e : KeyEvent) : (emitAndDispatch s e).seq = s.seq := by
  simp [emitAndDispatch]

@[simp] theorem dispatchEvents_seq (l : List KeyEvent) (s : State) : (l.foldl emitAndDispatch s).seq = s.seq := by
  exact foldl_keeps (fun t => t.seq) emitAndDispatch emitAndDispatch_seq l s

@[simp] theorem invokeAction_report_lastSendOk (a : Action) (p : Bool) (s : State) : (invokeAction a p s).report.lastSendOk = s.report.lastSendOk := by
  cases a <;> simp [invokeAction, layerSwitch, otherAction]

@[simp] theorem pressKey_report_lastSendOk (r c : Nat) (s : State) : (pressKey r c s).report.lastSendOk = s.report.lastSendOk := by
  unfold pressKey; dsimp only; split <;> simp

@[simp] theorem releaseOnLayer_report_lastSendOk (r c : Nat) (s : State) (l : Nat) : (releaseOnLayer r c s l).report.lastSendOk = s.report.lastSendOk := by
  unfold releaseOnLayer; dsimp only; split <;> simp

@[simp] theorem releaseKey_report_lastSendOk (r c : Nat) (s : State) : (releaseKey r c s).report.lastSendOk = s.report.lastSendOk := by
  exact foldl_keeps (fun t => t.report.lastSendOk) (releaseOnLayer r c) (releaseOnLayer_report_lastSendOk r c) _ s

@[simp] theorem dispatchEvent_report_lastSendOk (r c : Nat) (p : Bool) (s : State) : (dispatchEvent r c p s).report.lastSendOk = s.report.lastSendOk := by
  unfold dispatchEvent; split
  · simp
  · split <;> simp

@[simp] theorem emitAndDispatch_report_lastSendOk (s : State) (e : KeyEvent) : (emitAndDispatch s e).report.lastSendOk = s.report.lastSendOk := by
  simp [emitAndDispatch]

@[simp] theorem dispatchEvents_report_lastSendOk (l : List KeyEvent) (s : State) : (l.foldl emitAndDispatch s).report.lastSendOk = s.report.lastSendOk := by
  exact foldl_keeps (fun t => t.report.lastSendOk) emitAndDispatch emitAndDispatch_report_lastSendOk l s

@[simp] theorem invokeAction_env_inputs (a : Action) (p : Bool) (s : State) : (invokeAction a p s).env.inputs = s.env.inputs := by
  cases a <;> simp [invokeAction, layerSwitch, otherAction]

@[simp] theorem pressKey_env_inputs (r c : Nat) (s : State) : (pressKey r c s).env.inputs = s.env.inputs := by
  unfold pressKey; dsimp only; split <;> simp

@[simp] theorem releaseOnLayer_env_inputs (r c : Nat) (s : State) (l : Nat) : (releaseOnLayer r c s l).env.inputs = s.env.inputs := by
  unfold releaseOnLayer; dsimp only; split <;> simp

@[simp] theorem releaseKey_env_inputs (r c : Nat) (s : State) : (releaseKey r c s).env.inputs = s.env.inputs := by
  exact foldl_keeps (fun t => t.env.inputs) (releaseOnLayer r c) (releaseOnLayer_env_inputs r c) _ s

@[simp] theorem dispatchEvent_env_inputs (r c : Nat) (p : Bool) (s : State) : (dispatchEvent r c p s).env.inputs = s.env.inputs := by
  unfold dispatchEvent; split
  · simp
  · split <;> simp

@[simp] theorem emitAndDispatch_env_inputs (s : State) (e : KeyEvent) : (emitAndDispatch s e).env.inputs = s.env.inputs := by
  simp [emitAndDispatch]

@[simp] theorem dispatchEvents_env_inputs (l : List KeyEvent) (s : State) : (l.foldl emitAndDispatch s).env.inputs = s.env.inputs := by
  exact foldl_keeps (fun t => t.env.inputs) emitAndDispatch emitAndDispatch_env_inputs l s

@[simp] theorem invokeAction_env_writeAnswers (a : Action) (p : Bool) (s : State) : (invokeAction a p s).env.writeAnswers = s.env.writeAnswers := by
  cases a <;> simp [invokeAction, layerSwitch, otherAction]

@[simp] theorem pressKey_env_writeAnswers (r c : Nat) (s : State) : (pressKey r c s).env.writeAnswers = s.env.writeAnswers := by
  unfold pressKey; dsimp only; split <;> simp

@[simp] theorem releaseOnLayer_env_writeAnswers (r c : Nat) (s : State) (l : Nat) : (releaseOnLayer r c s l).env.writeAnswers = s.env.writeAnswers := by
  unfold releaseOnLayer; dsimp only; split <;> simp

@[simp] theorem releaseKey_env_writeAnswers (r c : Nat) (s : State) : (releaseKey r c s).env.writeAnswers = s.env.writeAnswers := by
  exact foldl_keeps (fun t => t.env.writeAnswers) (releaseOnLayer r c) (releaseOnLayer_env_writeAnswers r c) _ s

@[simp] theorem dispatchEvent_env_writeAnswers (r c : Nat) (p : Bool) (s : State) : (dispatchEvent r c p s).env.writeAnswers = s.env.writeAnswers := by
  unfold dispatchEvent; split
  · simp
  · split <;> simp

@[simp] theorem emitAndDispatch_env_writeAnswers (s : State) (e : KeyEvent) : (emitAndDispatch s e).env.writeAnswers = s.env.writeAnswers := by
  simp [emitAndDispatch]

@[simp] theorem dispatchEvents_env_writeAnswers (l : List KeyEvent) (s : State) : (l.foldl emitAndDispatch s).env.writeAnswers = s.env.writeAnswers := by
  exact foldl_keeps (fun t => t.env.writeAnswers) emitAndDispatch emitAndDispatch_env_writeAnswers l s

@[simp] theorem invokeAction_env_readAnswers (a : Action) (p : Bool) (s : State) : (invokeAction a p s).env.readAnswers = s.env.readAnswers := by
  cases a <;> simp [invokeAction, layerSwitch, otherAction]

@[simp] theorem pressKey_env_readAnswers (r c : Nat) (s : State) : (pressKey r c s).env.readAnswers = s.env.readAnswers := by
  unfold pressKey; dsimp only; split <;> simp

@[simp] theorem releaseOnLayer_env_readAnswers (r c : Nat) (s : State) (l : Nat) : (releaseOnLayer r c s l).env.readAnswers = s.env.readAnswers := by
  unfold releaseOnLayer; dsimp only; split <;> simp

@[simp] theorem releaseKey_env_readAnswers (r c : Nat) (s : State) : (releaseKey r c s).env.readAnswers = s.env.readAnswers := by
  exact foldl_keeps (fun t => t.env.readAnswers) (releaseOnLayer r c) (releaseOnLayer_env_readAnswers r c) _ s

@[simp] theorem dispatchEvent_env_readAnswers (r c : Nat) (p : Bool) (s : State) : (dispatchEvent r c p s).env.readAnswers = s.env.readAnswers := by
  unfold dispatchEvent; split
  · simp
  · split <;> simp

@[simp] theorem emitAndDispatch_env_readAnswers (s : State) (e : KeyEvent) : (emitAndDispatch s e).env.readAnswers = s.env.readAnswers := by
  simp [emitAndDispatch]

@[simp] theorem dispatchEvents_env_readAnswers (l : List KeyEvent) (s : State) : (l.foldl emitAndDispatch s).env.readAnswers = s.env.readAnswers := by
  exact foldl_keeps (fun t => t.env.readAnswers) emitAndDispatch emitAndDispatch_env_readAnswers l s

@[simp] theorem invokeAction_env_sendAnswers (a : Action) (p : Bool) (s : State) : (invokeAction a p s).env.sendAnswers = s.env.sendAnswers := by
  cases a <;> simp [invokeAction, layerSwitch, otherAction]

@[simp] theorem pressKey_env_sendAnswers (r c : Nat) (s : State) : (pressKey r c s).env.sendAnswers = s.env.sendAnswers := by
  unfold pressKey; dsimp only; split <;> simp

@[simp] theorem releaseOnLayer_env_sendAnswers (r c : Nat) (s : State) (l : Nat) : (releaseOnLayer r c s l).env.sendAnswers = s.env.sendAnswers := by
  unfold releaseOnLayer; dsimp only; split <;> simp

@[simp] theorem releaseKey_env_sendAnswers (r c : Nat) (s : State) : (releaseKey r c s).env.sendAnswers = s.env.sendAnswers := by
  exact foldl_keeps (fun t => t.env.sendAnswers) (releaseOnLayer r c) (releaseOnLayer_env_sendAnswers r c) _ s

@[simp] theorem dispatchEvent_env_sendAnswers (r c : Nat) (p : Bool) (s : State) : (dispatchEvent r c p s).env.sendAnswers = s.env.sendAnswers := by
  unfold dispatchEvent; split
  · simp
  · split <;> simp

@[simp] theorem emitAndDispatch_env_sendAnswers (s : State) (e : KeyEvent) : (emitAndDispatch s e).env.sendAnswers = s.env.sendAnswers := by
  simp [emitAndDispatch]

@[simp] theorem dispatchEvents_env_sendAnswers (l : List KeyEvent) (s : State) : (l.foldl emitAndDispatch s).env.sendAnswers = s.env.sendAnswers := by
  exact foldl_keeps (fun t => t.env.sendAnswers) emitAndDispatch emitAndDispatch_env_sendAnswers l s

@[simp] theorem invokeAction_env_freeCount (a : Action) (p : Bool) (s : State) : (invokeAction a p s).env.freeCount = s.env.freeCount := by
  cases a <;> simp [invokeAction, layerSwitch, otherAction]

@[simp] theorem pressKey_env_freeCount (r c : Nat) (s : State) : (pressKey r c s).env.freeCount = s.env.freeCount := by
  unfold pressKey; dsimp only; split <;> simp

@[simp] theorem releaseOnLayer_env_freeCount (r c : Nat) (s : State) (l : Nat) : (releaseOnLayer r c s l).env.freeCount = s.env.freeCount := by
  unfold releaseOnLayer; dsimp only; split <;> simp

@[simp] theorem releaseKey_env_freeCount (r c : Nat) (s : State) : (releaseKey r c s).env.freeCount = s.env.freeCount := by
  exact foldl_keeps (fun t => t.env.freeCount) (releaseOnLayer r c) (releaseOnLayer_env_freeCount r c) _ s

@[simp] theorem dispatchEvent_env_freeCount (r c : Nat) (p : Bool) (s : State) : (dispatchEvent r c p s).env.freeCount = s.env.freeCount := by
  unfold dispatchEvent; split
  · simp
  · split <;> simp

@[simp] theorem emitAndDispatch_env_freeCount (s : State) (e : KeyEvent) : (emitAndDispatch s e).env.freeCount = s.env.freeCount := by
  simp [emitAndDispatch]

@[simp] theorem dispatchEvents_env_freeCount (l : List KeyEvent) (s : State) : (l.foldl emitAndDispatch s).env.freeCount = s.env.freeCount := by
  exact foldl_keeps (fun t => t.env.freeCount) emitAndDispatch emitAndDispatch_env_freeCount l s

@[simp] theorem diffBody_cfg (s : State) : (diffBody s).cfg = s.cfg := by
  simp [diffBody]

@[simp] theorem diffBody_dev (s : State) : (diffBody s).dev = s.dev := by
  simp [diffBody]

@[simp] theorem diffBody_port (s : State) : (diffBody s).port = s.port := by
  simp [diffBody]

@[simp] theorem diffBody_seq (s : State) : (diffBody s).seq = s.seq := by
  simp [diffBody]

@[simp] theorem diffBody_report_lastSendOk (s : State) : (diffBody s).report.lastSendOk = s.report.lastSendOk := by
  simp [diffBody]

@[simp] theorem diffBody_env_inputs (s : State) : (diffBody s).env.inputs = s.env.inputs := by
  simp [diffBody]

@[simp] theorem diffBody_env_writeAnswers (s : State) : (diffBody s).env.writeAnswers = s.env.writeAnswers := by
  simp [diffBody]

@[simp] theorem diffBody_env_readAnswers (s : State) : (diffBody s).env.readAnswers = s.env.readAnswers := by
  simp [diffBody]

@[simp] theorem diffBody_env_sendAnswers (s : State) : (diffBody s).env.sendAnswers = s.env.sendAnswers := by
  simp [diffBody]

@[simp] theorem diffBody_env_freeCount (s : State) : (diffBody s).env.freeCount = s.env.freeCount := by
  simp [diffBody]

@[simp] theorem diffBody_snap (s : State) : (diffBody s).snap = { s.snap with stablePrev := s.snap.stable } := by
  simp [diffBody]

/-! ### Pipeline controller -/

@[simp] theorem passBody_cfg (s : State) : (passBody s).cfg = s.cfg := by
  simp [passBody]

@[simp] theorem passBody_port (s : State) : (passBody s).port = s.port := by
  simp [passBody]

@[simp] theorem passBody_seq_pipePhase (s : State) : (passBody s).seq.pipePhase = s.seq.pipePhase := by
  simp [passBody]

@[simp] theorem passBody_report_lastSendOk (s : State) : (passBody s).report.lastSendOk = s.report.lastSendOk := by
  simp [passBody]

@[simp] theorem passBody_dev_ready0 (s : State) : (passBody s).dev.ready0 = s.dev.ready0 := by
  simp [passBody]

@[simp] theorem passBody_dev_ready1 (s : State) : (passBody s).dev.ready1 = s.dev.ready1 := by
  simp [passBody]

@[simp] theorem passBody_dev_initialized (s : State) : (passBody s).dev.initialized = s.dev.initialized := by
  simp [passBody]

@[simp] theorem passBody_seq_passCount (s : State) : (passBody s).seq.passCount = s.seq.passCount := by
  simp [passBody]

@[simp] theorem requeuePass_cfg (s : State) : (requeuePass s).cfg = s.cfg := by
  simp [requeuePass, setPassCount]

@[simp] theorem requeueLoop_cfg (n : Nat) (s : State) : (requeueLoop n s).cfg = s.cfg := by
  induction n generalizing s with
  | zero => rfl
  | succ n ih =>
    unfold requeueLoop; split
    · rw [ih, requeuePass_cfg]
    · rfl

@[simp] theorem requeuePass_port (s : State) : (requeuePass s).port = s.port := by
  simp [requeuePass, setPassCount]

@[simp] theorem requeueLoop_port (n : Nat) (s : State) : (requeueLoop n s).port = s.port := by
  induction n generalizing s with
  | zero => rfl
  | succ n ih =>
    unfold requeueLoop; split
    · rw [ih, requeuePass_port]
    · rfl

@[simp] theorem requeuePass_seq_pipePhase (s : State) : (requeuePass s).seq.pipePhase = s.seq.pipePhase := by
  simp [requeuePass, setPassCount]

@[simp] theorem requeueLoop_seq_pipePhase (n : Nat) (s : State) : (requeueLoop n s).seq.pipePhase = s.seq.pipePhase := by
  induction n generalizing s with
  | zero => rfl
  | succ n ih =>
    unfold requeueLoop; split
    · rw [ih, requeuePass_seq_pipePhase]
    · rfl

@[simp] theorem requeuePass_report_lastSendOk (s : State) : (requeuePass s).report.lastSendOk = s.report.lastSendOk := by
  simp [requeuePass, setPassCount]

@[simp] theorem requeueLoop_report_lastSendOk (n : Nat) (s : State) : (requeueLoop n s).report.lastSendOk = s.report.lastSendOk := by
  induction n generalizing s with
  | zero => rfl
  | succ n ih =>
    unfold requeueLoop; split
    · rw [ih, requeuePass_report_lastSendOk]
    · rfl

@[simp] theorem requeuePass_dev_ready0 (s : State) : (requeuePass s).dev.ready0 = s.dev.ready0 := by
  simp [requeuePass, setPassCount]

@[simp] theorem requeueLoop_dev_ready0 (n : Nat) (s : State) : (requeueLoop n s).dev.ready0 = s.dev.ready0 := by
  induction n generalizing s with
  | zero => rfl
  | succ n ih =>
    unfold requeueLoop; split
    · rw [ih, requeuePass_dev_ready0]
    · rfl

@[simp] theorem requeuePass_dev_ready1 (s : State) : (requeuePass s).dev.ready1 = s.dev.ready1 := by
  simp [requeuePass, setPassCount]

@[simp] theorem requeueLoop_dev_ready1 (n : Nat) (s : State) : (requeueLoop n s).dev.ready1 = s.dev.ready1 := by
  induction n generalizing s with
  | zero => rfl
  | succ n ih =>
    unfold requeueLoop; split
    · rw [ih, requeuePass_dev_ready1]
    · rfl

@[simp] theorem requeuePass_dev_initialized (s : State) : (requeuePass s).dev.initialized = s.dev.initialized := by
  simp [requeuePass, setPassCount]

@[simp] theorem requeueLoop_dev_initialized (n : Nat) (s : State) : (requeueLoop n s).dev.initialized = s.dev.initialized := by
  induction n generalizing s with
  | zero => rfl
  | succ n ih =>
    unfold requeueLoop; split
    · rw [ih, requeuePass_dev_initialized]
    · rfl

/-! ### The function-key table (R217) -/

/-- No entry at the position: no match. -/
theorem fkFind_eq_none {p : Params} {row col : Nat} (h : ∀ x ∈ p.fkt, ¬ (x.row = row ∧ x.col = col)) :
    p.fkFind row col = none := by
  simpa [Params.fkFind] using h

/-- The first entry at the position is the match. -/
theorem fkFind_eq_some {p : Params} {row col : Nat} {before after : List FkEntry} {e : FkEntry}
    (hp : p.fkt = before ++ e :: after) (hr : e.row = row) (hc : e.col = col)
    (hb : ∀ x ∈ before, ¬ (x.row = row ∧ x.col = col)) : p.fkFind row col = some e := by
  have hn : before.find? (fun x => decide (x.row = row ∧ x.col = col)) = none := by simpa using hb
  rw [Params.fkFind, hp, List.find?_append, hn]
  simp [hr, hc]

end Sys2Proof.Machine
end

