-- ==== Sys2Proof/Laws/Acts.lean ====
section
/-! SUPPORT. How an operation meets the environment: the events it adds to the trace, and what interrupt edges
may do meanwhile. One lemma per operation, composed by `Acts.trans`. -/

namespace Sys2Proof.Machine

/-- `t` follows `s` by the block's own events `own`, with interrupt edges falling anywhere between them. -/
structure Acts (s t : State) (own : List Event) : Prop where
  trace : ∃ more, t.trace = s.trace ++ more ∧ more.filter (fun e => !isIrq e) = own ∧
    (s.env.edges = [] → more = own) ∧ (s.dev.irqEn = false → ∀ e ∈ more, e ≠ .irq .taken)
  cfg : t.cfg = s.cfg
  wake_quiet : s.env.edges = [] → t.wake = s.wake
  wake_masked : s.dev.irqEn = false → t.wake = s.wake
  wake_or : t.wake = s.wake ∨ t.wake = s.cfg.pollReload
  edges : s.env.edges = [] → t.env.edges = []
  inputs : t.env.inputs = s.env.inputs

namespace Acts

/-- Nothing happens. -/
theorem refl (s : State) : Acts s s [] :=
  ⟨⟨[], by simp⟩, rfl, fun _ => rfl, fun _ => rfl, .inl rfl, id, rfl⟩

/-- One after the other; the interrupt stays masked meanwhile if the first keeps it so. -/
theorem trans {s t u : State} {a b : List Event} (h : Acts s t a) (g : Acts t u b)
    (hm : s.dev.irqEn = false → t.dev.irqEn = false) : Acts s u (a ++ b) := by
  obtain ⟨m, ht, hf, he, hk⟩ := h.trace
  obtain ⟨m', ht', hf', he', hk'⟩ := g.trace
  refine ⟨⟨m ++ m', ?_, ?_, ?_, ?_⟩, g.cfg.trans h.cfg, ?_, ?_, ?_, ?_, g.inputs.trans h.inputs⟩
  · rw [ht', ht, List.append_assoc]
  · rw [List.filter_append, hf, hf']
  · intro q; rw [he q, he' (h.edges q)]
  · intro q e hmem
    rcases List.mem_append.mp hmem with x | x
    · exact hk q e x
    · exact hk' (hm q) e x
  · intro q; rw [g.wake_quiet (h.edges q), h.wake_quiet q]
  · intro q; rw [g.wake_masked (hm q), h.wake_masked q]
  · rcases g.wake_or with w | w
    · rw [w]; exact h.wake_or
    · right; rw [w, h.cfg]
  · intro q; exact g.edges (h.edges q)

/-- Acting is growing. -/
theorem grows {s t : State} {own : List Event} (h : Acts s t own) : Grows s t own := by
  obtain ⟨m, ht, hf, he, -⟩ := h.trace
  exact ⟨m, ht, hf, he⟩

/-- Acting moves WAKE only as edges do. -/
theorem wakeMoves {s t : State} {own : List Event} (h : Acts s t own) : WakeMoves s t :=
  ⟨h.wake_quiet, h.wake_or⟩

/-- A register update that leaves the trace, WAKE, the edges, the inputs and the interrupt enable alone. -/
theorem congr {s t s' t' : State} {own : List Event} (h : Acts s t own)
    (hs : s'.trace = s.trace ∧ s'.cfg = s.cfg ∧ s'.wake = s.wake ∧ s'.env.edges = s.env.edges ∧
      s'.env.inputs = s.env.inputs ∧ s'.dev.irqEn = s.dev.irqEn)
    (ht : t'.trace = t.trace ∧ t'.cfg = t.cfg ∧ t'.wake = t.wake ∧ t'.env.edges = t.env.edges ∧
      t'.env.inputs = t.env.inputs) : Acts s' t' own := by
  obtain ⟨s1, s2, s3, s4, s5, s6⟩ := hs
  obtain ⟨t1, t2, t3, t4, t5⟩ := ht
  refine ⟨?_, ?_, ?_, ?_, ?_, ?_, ?_⟩
  · rw [t1, s1, s4, s6]; exact h.trace
  · rw [t2, s2]; exact h.cfg
  · rw [s4, t3, s3]; exact h.wake_quiet
  · rw [s6, t3, s3]; exact h.wake_masked
  · rw [t3, s3, s2]; exact h.wake_or
  · rw [s4, t4]; exact h.edges
  · rw [t5, s5]; exact h.inputs

end Acts

/-- An interleaving point adds no event of the block's own. -/
theorem interleave_acts (s : State) : Acts s (interleave s) [] := by
  obtain ⟨m, ht, hi, hd, hw⟩ := interleave_spec s
  refine ⟨⟨m, ht, ?_, ?_, ?_⟩, by simp, ?_, fun q => (hd q).1, hw, ?_, by simp⟩
  · rw [List.filter_eq_nil_iff]; intro e he; simp [hi e he]
  · intro q
    rw [interleave_of_no_edges s q] at ht
    simpa using ht.symm
  · intro q e he hc
    have := (hd q).2 e he
    rw [this] at hc; cases hc
  · intro q; rw [interleave_of_no_edges s q]
  · intro q; rw [interleave_of_no_edges s q]; exact q

/-- An event of the block joins its own events. -/
theorem emit_acts (e : Event) (s : State) (h : isIrq e = false) : Acts s (emit e s) [e] := by
  have a := interleave_acts s
  obtain ⟨m, ht, hf, he, hk⟩ := a.trace
  refine ⟨⟨m ++ [e], ?_, ?_, ?_, ?_⟩, by simp, a.wake_quiet, a.wake_masked, a.wake_or, a.edges, a.inputs⟩
  · rw [emit_trace, ht, List.append_assoc]
  · rw [List.filter_append, hf]; simp [h]
  · intro q; rw [he q]; rfl
  · intro q x hx
    rcases List.mem_append.mp hx with y | y
    · exact hk q x y
    · have : x = e := by simpa using y
      rw [this]; intro hc; rw [hc] at h; cases h

theorem waitFor_acts (k : WaitKind) (s : State) : Acts s (waitFor k s) [.wait k] :=
  emit_acts _ _ rfl

theorem busWrite_acts (a : BusAddr) (b : List Byte) (s : State) :
    Acts s (busWrite a b s).2 [.busW a b s.env.nextStatus] :=
  (emit_acts _ (s.setEnv s.env.dropStatus) rfl).congr (by simp) (by simp [busWrite])

theorem busRead_acts (a : BusAddr) (n : Nat) (s : State) :
    Acts s (busRead a n s).2 [.busR a n (s.env.nextRead.bytes n) s.env.nextRead.status] :=
  (emit_acts _ (s.setEnv s.env.dropRead) rfl).congr (by simp) (by simp [busRead])

theorem hidSend_acts (b : List Byte) (s : State) : Acts s (hidSend b s).2 [.send b s.env.nextAccepted] :=
  (emit_acts _ (s.setEnv s.env.dropAccepted) rfl).congr (by simp) (by simp [hidSend])

theorem setIrqEn_acts (b : Bool) (s : State) : Acts s (setIrqEn b s) [] :=
  (interleave_acts s).congr (by simp) (by simp)

/-! ### What the bus operations take of the environment's answers -/

section Answers

variable (s : State)

theorem busWrite_env (a : BusAddr) (b : List Byte) :
    (busWrite a b s).2.env = { s.env.dropStatus with edges := s.env.edges.tail } := by
  simp [busWrite, interleave_env]

theorem busRead_env (a : BusAddr) (n : Nat) :
    (busRead a n s).2.env = { s.env.dropRead with edges := s.env.edges.tail } := by
  simp [busRead, interleave_env]

theorem hidSend_env (b : List Byte) :
    (hidSend b s).2.env = { s.env.dropAccepted with edges := s.env.edges.tail } := by
  simp [hidSend, interleave_env]

/-- The next status does not depend on the schedule of edges. -/
@[simp] theorem Env.nextStatus_edges (e : Env) (l : List Nat) :
    Env.nextStatus { e with edges := l } = e.nextStatus := rfl

@[simp] theorem Env.nextRead_edges (e : Env) (l : List Nat) : Env.nextRead { e with edges := l } = e.nextRead := rfl

@[simp] theorem Env.nextAccepted_edges (e : Env) (l : List Nat) :
    Env.nextAccepted { e with edges := l } = e.nextAccepted := rfl

@[simp] theorem Env.dropStatus_edges_with (e : Env) (l : List Nat) :
    Env.dropStatus { e with edges := l } = { e.dropStatus with edges := l } := by
  obtain ⟨_, _, w, _, _, _⟩ := e
  cases w <;> rfl

@[simp] theorem Env.dropRead_edges_with (e : Env) (l : List Nat) :
    Env.dropRead { e with edges := l } = { e.dropRead with edges := l } := by
  obtain ⟨_, _, _, r, _, _⟩ := e
  cases r <;> rfl

/-- The read after a write takes the answer that stood next before both. -/
theorem busWrite_nextRead (a : BusAddr) (b : List Byte) :
    (busWrite a b s).2.env.nextRead = s.env.dropStatus.nextRead := by
  rw [busWrite_env]; rfl

end Answers

theorem drvWriteByte_acts (c : Chip) (g v : Byte) (s : State) :
    Acts s (drvWriteByte c g v s).2 [.busW (s.cfg.chipAddr c) [g, v] s.env.nextStatus] :=
  busWrite_acts _ _ _

theorem drvWriteWord_acts (c : Chip) (g : Byte) (v : Half) (s : State) :
    Acts s (drvWriteWord c g v s).2 [.busW (s.cfg.chipAddr c) [g, lowByte v, highByte v] s.env.nextStatus] :=
  busWrite_acts _ _ _

/-- A read whose register-select write failed. -/
theorem drvReadByte_of_failed (c : Chip) (g : Byte) (s : State) (h : s.env.nextStatus ≠ 0#8) :
    drvReadByte c g s = ((0x00#8, false), (busWrite (s.cfg.chipAddr c) [g] s).2) := by
  simp [drvReadByte, h]

/-- A read whose register-select write succeeded: the read's answer decides. -/
theorem drvReadByte_of_ok (c : Chip) (g : Byte) (s : State) (h : s.env.nextStatus = 0#8) :
    drvReadByte c g s =
      (if s.env.dropStatus.nextRead.status = 0#8 then (s.env.dropStatus.nextRead.low, true) else (0x00#8, false),
        (busRead (s.cfg.chipAddr c) 1 (busWrite (s.cfg.chipAddr c) [g] s).2).2) := by
  simp only [drvReadByte, busWrite_fst, h, if_true, busRead_fst, busWrite_env, Env.nextRead_edges]
  split <;> rfl

theorem drvReadByte_acts_of_ok (c : Chip) (g : Byte) (s : State) (h : s.env.nextStatus = 0#8) :
    Acts s (drvReadByte c g s).2
      [.busW (s.cfg.chipAddr c) [g] 0#8,
       .busR (s.cfg.chipAddr c) 1 [s.env.dropStatus.nextRead.low] s.env.dropStatus.nextRead.status] := by
  have a := busWrite_acts (s.cfg.chipAddr c) [g] s
  have b := busRead_acts (s.cfg.chipAddr c) 1 (busWrite (s.cfg.chipAddr c) [g] s).2
  rw [drvReadByte_of_ok c g s h]
  have t := a.trans b (by simp)
  rw [h, busWrite_nextRead] at t
  exact t

theorem drvReadWord_of_failed (c : Chip) (g : Byte) (s : State) (h : s.env.nextStatus ≠ 0#8) :
    drvReadWord c g s = ((0x0000#16, false), (busWrite (s.cfg.chipAddr c) [g] s).2) := by
  simp [drvReadWord, h]

theorem drvReadWord_of_ok (c : Chip) (g : Byte) (s : State) (h : s.env.nextStatus = 0#8) :
    drvReadWord c g s =
      (if s.env.dropStatus.nextRead.status = 0#8 then
          (joinBytes s.env.dropStatus.nextRead.low s.env.dropStatus.nextRead.high, true)
        else (0x0000#16, false),
        (busRead (s.cfg.chipAddr c) 2 (busWrite (s.cfg.chipAddr c) [g] s).2).2) := by
  simp only [drvReadWord, busWrite_fst, h, if_true, busRead_fst, busWrite_env, Env.nextRead_edges]
  split <;> rfl

theorem drvReadWord_acts_of_ok (c : Chip) (g : Byte) (s : State) (h : s.env.nextStatus = 0#8) :
    Acts s (drvReadWord c g s).2
      [.busW (s.cfg.chipAddr c) [g] 0#8,
       .busR (s.cfg.chipAddr c) 2 [s.env.dropStatus.nextRead.low, s.env.dropStatus.nextRead.high]
         s.env.dropStatus.nextRead.status] := by
  have a := busWrite_acts (s.cfg.chipAddr c) [g] s
  have b := busRead_acts (s.cfg.chipAddr c) 2 (busWrite (s.cfg.chipAddr c) [g] s).2
  rw [drvReadWord_of_ok c g s h]
  have t := a.trans b (by simp)
  rw [h, busWrite_nextRead] at t
  exact t

/-! ### Some events or other: what every larger operation does -/

/-- `t` follows `s` by some events of the block. -/
def ActsSome (s t : State) : Prop :=
  ∃ own, Acts s t own

theorem ActsSome.refl (s : State) : ActsSome s s := ⟨[], .refl s⟩

theorem ActsSome.trans {s t u : State} (h : ActsSome s t) (g : ActsSome t u)
    (hm : s.dev.irqEn = false → t.dev.irqEn = false) : ActsSome s u :=
  let ⟨a, ha⟩ := h
  let ⟨b, hb⟩ := g
  ⟨a ++ b, ha.trans hb hm⟩

theorem drvReadByte_actsSome (c : Chip) (g : Byte) (s : State) : ActsSome s (drvReadByte c g s).2 := by
  by_cases h : s.env.nextStatus = 0#8
  · exact ⟨_, drvReadByte_acts_of_ok c g s h⟩
  · rw [drvReadByte_of_failed c g s h]; exact ⟨_, busWrite_acts _ _ _⟩

theorem sampleStore_actsSome (c : Chip) (i : Nat) (s : State) : ActsSome s (sampleStore c i s) := by
  obtain ⟨own, h⟩ := drvReadByte_actsSome c s.cfg.regRowIn s
  exact ⟨own, h.congr (by simp) (by simp [sampleStore])⟩

theorem scanColumn_actsSome (c : Chip) (s : State) (i : Nat) : ActsSome s (scanColumn c s i) := by
  have w : ActsSome s (selectWrite c i (scanAt .select c i s)).2 :=
    ⟨_, (drvWriteByte_acts c s.cfg.regColOut (colSelect i) (scanAt .select c i s)).congr (by simp)
      (by simp [selectWrite])⟩
  unfold scanColumn
  dsimp only
  split
  · obtain ⟨own, h⟩ := w
    have x : ActsSome s (waitFor .settle (scanAt .settle c i (selectWrite c i (scanAt .select c i s)).2)) :=
      ActsSome.trans ⟨own, h⟩
        ⟨_, (waitFor_acts .settle (scanAt .settle c i (selectWrite c i (scanAt .select c i s)).2)).congr
          (by simp) (by simp)⟩ (by simp)
    obtain ⟨o2, h2⟩ := x
    obtain ⟨o3, h3⟩ := sampleStore_actsSome c i
      (scanAt .sample c i (waitFor .settle (scanAt .settle c i (selectWrite c i (scanAt .select c i s)).2)))
    exact ActsSome.trans ⟨o2, h2⟩ ⟨o3, h3.congr (by simp) (by simp)⟩ (by simp)
  · obtain ⟨own, h⟩ := w
    exact ⟨own, h.congr (by simp) (by simp)⟩

theorem scanColumns_actsSome (c : Chip) (l : List Nat) (s : State) : ActsSome s (l.foldl (scanColumn c) s) := by
  induction l generalizing s with
  | nil => exact .refl s
  | cons i l ih => exact (scanColumn_actsSome c s i).trans (ih _) (by simp)

theorem parkWrite_actsSome (c : Chip) (s : State) : ActsSome s (parkWrite c s) :=
  ⟨_, drvWriteByte_acts c s.cfg.regColOut parkValue s⟩

theorem scanChip_actsSome (c : Chip) (s : State) : ActsSome s (scanChip c s) := by
  unfold scanChip
  split
  · refine ActsSome.trans (scanColumns_actsSome c (List.range (s.cfg.colsOf c)) s) ?_ (by simp)
    obtain ⟨o, h⟩ := parkWrite_actsSome c
      (scanAt .park c (s.cfg.colsOf c) ((List.range (s.cfg.colsOf c)).foldl (scanColumn c) s))
    exact ⟨o, h.congr (by simp) (by simp)⟩
  · exact .refl s

theorem beginScan_acts (s : State) : Acts s (beginScan s) [] :=
  (setIrqEn_acts false s).congr (by simp) (by simp [beginScan])

theorem endScan_acts (s : State) : Acts s (endScan s) [] :=
  (setIrqEn_acts s.dev.initialized s).congr (by simp) (by simp [endScan])

theorem scanBody_actsSome (s : State) : ActsSome s (scanBody s) := by
  have a : ActsSome s (scanChip .chip1 (scanChip .chip0 (beginScan s))) :=
    (ActsSome.trans ⟨_, beginScan_acts s⟩ (scanChip_actsSome .chip0 _) (by simp)).trans
      (scanChip_actsSome .chip1 _) (by simp)
  exact a.trans ⟨_, endScan_acts _⟩ (by simp)

theorem configure_actsSome (c : Chip) (l : List (Byte × Byte)) (s : State) : ActsSome s (configure c l s).2 := by
  induction l generalizing s with
  | nil => exact .refl s
  | cons p l ih =>
    simp only [configure]
    split
    · exact ActsSome.trans ⟨_, drvWriteByte_acts c p.1 p.2 s⟩ (ih _) (by simp)
    · exact ⟨_, drvWriteByte_acts c p.1 p.2 s⟩

theorem initChip_actsSome (c : Chip) (s : State) : ActsSome s (initChip c s) := by
  have a := configure_actsSome c s.cfg.cfgSeq s
  unfold initChip
  dsimp only
  split
  · obtain ⟨o, h⟩ := a.trans ⟨_, drvWriteByte_acts c (configure c s.cfg.cfgSeq s).2.cfg.regColOut parkValue
      (configure c s.cfg.cfgSeq s).2⟩ (by simp)
    exact ⟨o, h.congr (by simp) (by simp)⟩
  · obtain ⟨o, h⟩ := a
    exact ⟨o, h.congr (by simp) (by simp)⟩

theorem invokeAction_actsSome (a : Action) (p : Bool) (s : State) : ActsSome s (invokeAction a p s) := by
  cases a with
  | layerSwitch => exact ⟨[], (Acts.refl s).congr (by simp) (by simp [invokeAction, layerSwitch])⟩
  | other id => exact ⟨_, emit_acts _ s rfl⟩

theorem releaseOnLayer_actsSome (r c : Nat) (s : State) (l : Nat) : ActsSome s (releaseOnLayer r c s l) := by
  unfold releaseOnLayer
  dsimp only
  split
  · exact ⟨[], (Acts.refl s).congr (by simp) (by simp)⟩
  · exact .refl s

theorem dispatchEvent_actsSome (r c : Nat) (p : Bool) (s : State) : ActsSome s (dispatchEvent r c p s) := by
  unfold dispatchEvent
  split
  · exact invokeAction_actsSome _ p s
  · split
    · unfold pressKey
      dsimp only
      split
      · exact ⟨[], (Acts.refl s).congr (by simp) (by simp)⟩
      · exact .refl s
    · unfold releaseKey
      generalize List.range s.cfg.layers = l
      induction l generalizing s with
      | nil => exact .refl s
      | cons a l ih =>
        refine ActsSome.trans (releaseOnLayer_actsSome r c s a) (ih _ ?_) (by simp)
        simpa using ‹s.cfg.fkFind r c = none›

theorem emitAndDispatch_actsSome (s : State) (e : KeyEvent) : ActsSome s (emitAndDispatch s e) :=
  ActsSome.trans ⟨_, emit_acts _ s rfl⟩ (dispatchEvent_actsSome _ _ _ _) (by simp)

theorem diffBody_actsSome (s : State) : ActsSome s (diffBody s) := by
  have a : ∀ (l : List KeyEvent) (s : State), ActsSome s (l.foldl emitAndDispatch s) := by
    intro l
    induction l with
    | nil => exact .refl
    | cons e l ih => intro s; exact (emitAndDispatch_actsSome s e).trans (ih _) (by simp)
  obtain ⟨o, h⟩ := a (edgeDispatch s.cfg.cols s.snap.stablePrev s.snap.stable) s
  exact ⟨o, h.congr (by simp) (by simp [diffBody])⟩

end Sys2Proof.Machine
end

