-- ==== Sys2Proof/Laws/PerInstr.lean ====
section
/-! SUPPORT. The statements that hold of every command as syntax, one lemma a constructor. -/

namespace Sys2Proof.Laws

/-- The `OP` of a command's row of R110. -/
def opcodeOf : Instr → BitVec 6
  | .init => 0x01#6
  | .cycle => 0x02#6
  | .scan => 0x03#6
  | .filter => 0x04#6
  | .diff => 0x05#6
  | .dispatch _ _ _ => 0x06#6
  | .addKey _ => 0x07#6
  | .removeKey _ => 0x08#6
  | .isAny => 0x09#6
  | .serialize => 0x0A#6
  | .transmit => 0x0B#6
  | .writeByte _ _ _ => 0x0C#6
  | .writeWord _ _ _ => 0x0D#6
  | .readByte _ _ => 0x0E#6
  | .readWord _ _ => 0x0F#6
  | .rawset _ _ => 0x10#6

/-- R101, R110: a command's word carries the opcode of its row in bits 31 to 26, whatever its operands. -/
def EncodesUnderItsOpcode.Statement (i : Instr) : Prop :=
  opField (encode i) = opcodeOf i

namespace EncodesUnderItsOpcode

theorem init : Statement .init := rfl

theorem cycle : Statement .cycle := rfl

theorem scan : Statement .scan := rfl

theorem filter : Statement .filter := rfl

theorem diff : Statement .diff := rfl

theorem dispatch (p : Bool) (r : BitVec 3) (c : BitVec 4) : Statement (.dispatch p r c) := by
  unfold Statement opField encode opBits opcodeOf
  ext i h
  interval_cases i <;> simp

theorem addKey (kc : Byte) : Statement (.addKey kc) := by
  unfold Statement opField encode opBits opcodeOf
  ext i h
  interval_cases i <;> simp

theorem removeKey (kc : Byte) : Statement (.removeKey kc) := by
  unfold Statement opField encode opBits opcodeOf
  ext i h
  interval_cases i <;> simp

theorem isAny : Statement .isAny := rfl

theorem serialize : Statement .serialize := rfl

theorem transmit : Statement .transmit := rfl

theorem writeByte (ch : Chip) (reg val : Byte) : Statement (.writeByte ch reg val) := by
  unfold Statement opField encode opBits busBits opcodeOf
  ext i h
  interval_cases i <;> simp

theorem writeWord (ch : Chip) (reg : Byte) (val : Half) : Statement (.writeWord ch reg val) := by
  unfold Statement opField encode opBits busBits opcodeOf
  ext i h
  interval_cases i <;> simp

theorem readByte (ch : Chip) (reg : Byte) : Statement (.readByte ch reg) := by
  unfold Statement opField encode opBits busBits opcodeOf
  ext i h
  interval_cases i <;> simp

theorem readWord (ch : Chip) (reg : Byte) : Statement (.readWord ch reg) := by
  unfold Statement opField encode opBits busBits opcodeOf
  ext i h
  interval_cases i <;> simp

theorem rawset (col : BitVec 4) (val : Byte) : Statement (.rawset col val) := by
  unfold Statement opField encode opBits opcodeOf
  ext i h
  interval_cases i <;> simp

end EncodesUnderItsOpcode

end Sys2Proof.Laws
end

