-- ==== Sys2Proof/Tests/Slice0.lean ====
section
/-! SUPPORT. The author's own tests. Expected values come from spec/95_test_vectors.md (TC1, its ids in the
comments) or from the example lines of the rules; then a witness for every statement with hypotheses. -/

open Sys2Proof Sys2Proof.Machine Sys2Proof.Claims

namespace Sys2Proof.Tests

/-- The configuration TC1, with register numbers and a configuration sequence of two writes. -/
def tc1 : Params :=
  { Config.resetParams with
    cols0 := 2, cols1 := 2, rows := 2, regColOut := 0xC0#8, regRowIn := 0xC1#8
    cfgSeq := [(0xA1#8, 0xB1#8), (0xA2#8, 0xB2#8)] }

/-- TC1 after reset. -/
def base : State := State.resetWith tc1

/-- TC1 under NOFN. -/
def nofn (k : Depth) : Params := { tc1 with policy := .nofn, depth := k }

/-- The environment's answers. -/
def answers (w : List Byte) (r : List ReadAnswer) (a : List Bool) : Env :=
  { base.env with writeAnswers := w, readAnswers := r, sendAnswers := a }

/-- A state whose bus and transport answer so. -/
def answering (s : State) (w : List Byte) (r : List ReadAnswer) (a : List Bool) : State :=
  s.setEnv (answers w r a)

/-- Both chips ready, the interrupt enabled, as after IN-1. -/
def ready : State := base.setDev ⟨true, true, true, true⟩

/-- A read answer of one byte. -/
def byteRead (v st : Byte) : ReadAnswer := ⟨v, 0#8, st⟩

/-- A report with these slots. -/
def withSlots (t : Slots) (s : State) : State := s.setReport { s.report with slots := t }

/-- A state with this raw snapshot. -/
def withRaw (t : Snapshot) (s : State) : State := s.setSnap { s.snap with raw := t }

/-- What is read from the next state, if there is one. -/
def seen {α : Type} (o : Host.Outcome State Fault Refusal) (f : State → α) : Option α :=
  match o with
  | .next t => some (f t)
  | _ => none

/-! ### Well-formedness: each check refuses an ill-formed term -/

theorem test_wf_refuses_row : Instr.wf tc1 (.dispatch true 2#3 0#4) = false := by decide

theorem test_wf_refuses_dispatch_column : Instr.wf tc1 (.dispatch true 0#3 4#4) = false := by decide

theorem test_wf_refuses_rawset_column : Instr.wf tc1 (.rawset 4#4 0x01#8) = false := by decide

theorem test_wf_refuses_rawset_value : Instr.wf tc1 (.rawset 1#4 0x04#8) = false := by decide

theorem test_wf_admits_last_position : Instr.wf tc1 (.dispatch true 1#3 3#4) = true := by decide

/-! ### Decoding: one word of every row, written out from the bit pictures of R102 to R108 -/

theorem test_decode_init : decode tc1 0x04000000#32 = .ok .init := rfl
theorem test_decode_cycle : decode tc1 0x08000000#32 = .ok .cycle := rfl
theorem test_decode_scan : decode tc1 0x0C000000#32 = .ok .scan := rfl
theorem test_decode_filter : decode tc1 0x10000000#32 = .ok .filter := rfl
theorem test_decode_diff : decode tc1 0x14000000#32 = .ok .diff := rfl
theorem test_decode_dispatch : decode tc1 0x18000111#32 = .ok (.dispatch true 1#3 1#4) := rfl
theorem test_decode_addKey : decode tc1 0x1C0000E1#32 = .ok (.addKey 0xE1#8) := rfl
theorem test_decode_removeKey : decode tc1 0x20000005#32 = .ok (.removeKey 0x05#8) := rfl
theorem test_decode_isAny : decode tc1 0x24000000#32 = .ok .isAny := rfl
theorem test_decode_serialize : decode tc1 0x28000000#32 = .ok .serialize := rfl
theorem test_decode_transmit : decode tc1 0x2C000000#32 = .ok .transmit := rfl
theorem test_decode_writeByte : decode tc1 0x311200FE#32 = .ok (.writeByte .chip1 0x12#8 0xFE#8) := rfl
theorem test_decode_writeWord : decode tc1 0x35FFABCD#32 = .ok (.writeWord .chip1 0xFF#8 0xABCD#16) := rfl
theorem test_decode_readByte : decode tc1 0x38130000#32 = .ok (.readByte .chip0 0x13#8) := rfl
theorem test_decode_readWord : decode tc1 0x3D120000#32 = .ok (.readWord .chip1 0x12#8) := rfl
theorem test_decode_rawset : decode tc1 0x40000103#32 = .ok (.rawset 1#4 0x03#8) := rfl

/-- E-20: the match word of DISPATCH is legal. -/
theorem test_decode_match_word : decode tc1 0x18000000#32 = .ok (.dispatch false 0#3 0#4) := rfl

/-- E-1, E-11, E-12. -/
theorem test_decode_unassigned : [0x00000000#32, 0x44000000#32, 0xFC000000#32].map (decode tc1) =
    List.replicate 3 (.error .unassignedOpcode) := rfl

/-- E-3, E-4, E-6, E-13, E-15, E-17, E-19. -/
theorem test_decode_reserved_bits :
    [0x04000001#32, 0x06000000#32, 0x18000180#32, 0x38130001#32, 0x3012FF00#32, 0x3D12FF00#32,
      0x1C000100#32].map (decode tc1) = List.replicate 7 (.error .reservedBit) := rfl

/-- E-7, E-8, E-9. -/
theorem test_decode_ranges : [0x18000120#32, 0x18000004#32, 0x40000104#32].map (decode tc1) =
    List.replicate 3 (.error .operandRange) := rfl

theorem test_table_word : decodeTableWord 32 0x400000FF = some (.rawset 0#4 0xFF#8) := by decide

theorem test_table_word_refused : decodeTableWord 32 0x06000000 = none := by decide

/-- A word placed at the port is the one the next step runs. -/
theorem test_fetch_word_runs : step (State.reset.withFetchWord 32 0x3C340000) =
    exec (.readWord .chip0 0x34#8) State.reset := rfl

/-! ### Assembler text (R112, R113) -/

/-- `PRESS r1, c0;x` -/
theorem test_assemble_press : Asm.assemble tc1
    ['P', 'R', 'E', 'S', 'S', ' ', 'r', '1', ',', ' ', 'c', '0', ';', 'x'] =
      some [.dispatch true 1#3 0#4] := by decide

/-- `ADD_KEY 256` does not fit its field. -/
theorem test_assemble_refuses_wide : Asm.assemble tc1
    ['A', 'D', 'D', '_', 'K', 'E', 'Y', ' ', '2', '5', '6'] = none := by decide

/-- `RAWSET c4, 0x1` fails a range check in TC1. -/
theorem test_assemble_refuses_range : Asm.assemble tc1
    ['R', 'A', 'W', 'S', 'E', 'T', ' ', 'c', '4', ',', '0', 'x', '1'] = none := by decide

/-- `WRITE_BYTE chip0, 0x12, 0xFE` (the example of R112) and its word (V-1). -/
theorem test_assemble_write_byte : (Asm.assemble tc1
    ['W', 'R', 'I', 'T', 'E', '_', 'B', 'Y', 'T', 'E', ' ', 'c', 'h', 'i', 'p', '0', ',', ' ', '0', 'x', '1', '2',
      ',', ' ', '0', 'x', 'F', 'E']).map (List.map encode) = some [0x301200FE#32] := by decide

/-! ### One step of each command -/

/-- IN-2: chip 1's first write fails. -/
theorem test_init_one_chip :
    seen (exec .init (answering base [0#8, 0#8, 0#8, 1#8] [] [])) (fun t => (t.dev, t.port)) =
      some (⟨true, false, true, true⟩, ⟨0x00#8, [0x01#8]⟩) := by decide

/-- IN-3: chip 0's park write fails; all six writes are made. -/
theorem test_init_park_fails :
    seen (exec .init (answering base [0#8, 0#8, 1#8, 0#8, 0#8, 0#8] [] [])) (fun t => (t.port, t.trace.length)) =
      some (⟨0x00#8, [0x02#8]⟩, 6) := by decide

/-- S-2. -/
theorem test_scan_masks :
    seen (exec .scan (answering ready (List.replicate 10 0#8)
        [byteRead 0x01#8 0#8, byteRead 0xFE#8 0#8, byteRead 0x00#8 0#8, byteRead 0x03#8 0#8] []))
      (fun t => (t.snap.raw, t.trace.length, t.dev.irqEn)) =
      some ([0x01#8, 0x02#8, 0x00#8, 0x03#8], 18, true) := by decide

/-- S-3: the select write of chip 0's column 1 fails. -/
theorem test_scan_select_fails :
    seen (exec .scan (answering ready ([0#8, 0#8, 1#8] ++ List.replicate 6 0#8)
        [byteRead 0x01#8 0#8, byteRead 0x00#8 0#8, byteRead 0x03#8 0#8] []))
      (fun t => (t.snap.raw, t.trace.take 6)) =
      some ([0x01#8, 0x00#8, 0x00#8, 0x03#8],
        [.busW 0x20#7 [0xC0#8, 0xFE#8] 0#8, .wait .settle, .busW 0x20#7 [0xC1#8] 0#8,
          .busR 0x20#7 1 [0x01#8] 0#8, .busW 0x20#7 [0xC0#8, 0xFD#8] 1#8,
          .busW 0x20#7 [0xC0#8, 0x00#8] 0#8]) := by decide

/-- F-2, its second step. -/
theorem test_filter_confirms :
    seen (exec .filter (base.setSnap { base.snap with
        raw := [1#8, 0#8, 0#8, 0#8], hist := [[1#8, 0#8, 0#8, 0#8]], pending := true }))
      (fun t => (t.snap.stable, t.snap.pending)) = some ([1#8, 0#8, 0#8, 0#8], false) := by decide

/-- F-7 under NOFN with K = 2, its second step: column 0 is confirmed while column 3 chatters. -/
theorem test_filter_per_bit :
    seen (exec .filter ((State.resetWith (nofn .two)).setSnap { base.snap with
        raw := [1#8, 0#8, 0#8, 0#8], hist := [[1#8, 0#8, 0#8, 1#8]] }))
      (fun t => (t.snap.stable, t.snap.pending)) = some ([1#8, 0#8, 0#8, 0#8], false) := by decide

/-- X-3. -/
theorem test_diff_order :
    seen (exec .diff (base.setSnap { base.snap with stable := [3#8, 0#8, 0#8, 2#8] })) (fun t => t.trace) =
      some [.key 0 0 true, .key 1 0 true, .key 1 3 true] := by decide

/-- K-6: a layer event reaches the later events of the same DIFF. -/
theorem test_diff_layer_first :
    seen (exec .diff (base.setSnap { base.snap with stable := [1#8, 2#8, 1#8, 0#8] }))
      (fun t => (t.layer, t.report.slots)) =
      some (1, ⟨0x04#8, 0x20#8, 0#8, 0#8, 0#8, 0#8⟩) := by decide

/-- K-3: keycode E1 is a modifier. -/
theorem test_dispatch_modifier :
    seen (exec (.dispatch true 1#3 0#4) base) (fun t => t.report) =
      some ⟨0x02#8, ⟨0#8, 0#8, 0#8, 0#8, 0#8, 0#8⟩, true, true⟩ := by decide

/-- K-5, its last command: 05, added on layer 0, is removed on layer 1. -/
theorem test_dispatch_release_all_layers :
    seen (exec (.dispatch false 0#3 1#4)
        ((withSlots ⟨0x05#8, 0#8, 0#8, 0#8, 0#8, 0#8⟩ base).setLayer 1))
      (fun t => (t.layer, t.report.slots)) = some (1, ⟨0#8, 0#8, 0#8, 0#8, 0#8, 0#8⟩) := by decide

/-- HR-1, its last command. -/
theorem test_addKey_evicts :
    seen (exec (.addKey 0x0A#8) (withSlots ⟨0x04#8, 0x05#8, 0x06#8, 0x07#8, 0x08#8, 0x09#8⟩ base))
      (fun t => (t.report.slots, t.report.dirty)) =
      some (⟨0x05#8, 0x06#8, 0x07#8, 0x08#8, 0x09#8, 0x0A#8⟩, true) := by decide

/-- HR-4: a modifier already set changes nothing. -/
theorem test_addKey_modifier_again :
    seen (exec (.addKey 0xE1#8) (base.setReport { base.report with mods := 0x02#8 })) (fun t => t.report) =
      some { base.report with mods := 0x02#8 } := by decide

/-- HR-2, its last command: only the first of two equal keys leaves. -/
theorem test_removeKey_first_only :
    seen (exec (.removeKey 0x04#8) (withSlots ⟨0x04#8, 0x04#8, 0#8, 0#8, 0#8, 0#8⟩ base))
      (fun t => t.report.slots) = some ⟨0x04#8, 0#8, 0#8, 0#8, 0#8, 0#8⟩ := by decide

/-- HR-11: REMOVE_KEY 0 does nothing. -/
theorem test_removeKey_zero :
    seen (exec (.removeKey 0x00#8) (withSlots ⟨0x04#8, 0#8, 0#8, 0#8, 0#8, 0#8⟩ base))
      (fun t => t.report) = some (withSlots ⟨0x04#8, 0#8, 0#8, 0#8, 0#8, 0#8⟩ base).report := by decide

/-- HR-8. -/
theorem test_isAny : seen (exec .isAny base) (fun t => t.port.result) = some [0x00#8] ∧
    seen (exec .isAny (base.setReport { base.report with mods := 0x01#8 })) (fun t => t.port.result) =
      some [0x01#8] := by decide

/-- The example of R243. -/
theorem test_serialize :
    seen (exec .serialize (base.setReport ⟨0x02#8, ⟨0x04#8, 0#8, 0#8, 0#8, 0#8, 0#8⟩, true, true⟩))
      (fun t => t.port.result) =
      some [0x01#8, 0x02#8, 0x00#8, 0x04#8, 0#8, 0#8, 0#8, 0#8, 0#8] := by decide

/-- HR-10: a rejected send. -/
theorem test_transmit_rejected :
    seen (exec .transmit (answering (withSlots ⟨0x04#8, 0#8, 0#8, 0#8, 0#8, 0#8⟩ base) [] [] [false]))
      (fun t => (t.port.status, t.report.lastSendOk, t.trace)) =
      some (0x03#8, false,
        [.send [0x01#8, 0#8, 0#8, 0x04#8, 0#8, 0#8, 0#8, 0#8, 0#8] false]) := by decide

/-- V-2. -/
theorem test_writeByte_fails :
    seen (exec (.writeByte .chip0 0x12#8 0xFE#8) (answering base [3#8] [] [])) (fun t => (t.trace, t.port)) =
      some ([.busW 0x20#7 [0x12#8, 0xFE#8] 3#8], ⟨0x02#8, []⟩) := by decide

/-- V-6: the low byte goes first. -/
theorem test_writeWord_low_first :
    seen (exec (.writeWord .chip1 0x00#8 0xFF00#16) (answering base [0#8] [] [])) (fun t => t.trace) =
      some [.busW 0x21#7 [0x00#8, 0x00#8, 0xFF#8] 0#8] := by decide

/-- V-4: the read is skipped. -/
theorem test_readByte_select_fails :
    seen (exec (.readByte .chip0 0x13#8) (answering base [1#8] [byteRead 0x05#8 0#8] []))
      (fun t => (t.trace, t.port)) = some ([.busW 0x20#7 [0x13#8] 1#8], ⟨0x02#8, []⟩) := by decide

/-- V-8: no row mask. -/
theorem test_readByte_unmasked :
    seen (exec (.readByte .chip0 0x13#8) (answering base [0#8] [byteRead 0xFF#8 0#8] [])) (fun t => t.port) =
      some ⟨0x00#8, [0xFF#8]⟩ := by decide

/-- V-7. -/
theorem test_readWord :
    seen (exec (.readWord .chip1 0x12#8) (answering base [0#8] [⟨0x34#8, 0x12#8, 0#8⟩] []))
      (fun t => (t.trace, t.port)) =
      some ([.busW 0x21#7 [0x12#8] 0#8, .busR 0x21#7 2 [0x34#8, 0x12#8] 0#8],
        ⟨0x00#8, [0x34#8, 0x12#8]⟩) := by decide

/-- The example of R187. -/
theorem test_rawset :
    seen (exec (.rawset 0#4 0x01#8) base) (fun t => t.snap.raw) = some [0x01#8, 0#8, 0#8, 0#8] := by decide

/-- CY-1. -/
theorem test_cycle_after_reset :
    seen (exec .cycle base) (fun t => (t.trace, t.wake, t.port)) =
      some ([.wait .debounce], 0#32, ⟨0x00#8, []⟩) := by decide

/-- IQ-4: an edge before the send of a CYCLE; the send step and then the decrement follow. -/
theorem test_cycle_edge_before_send :
    seen (exec .cycle ((base.setReport { base.report with dirty := true }).setDev
        ⟨false, false, true, true⟩ |>.setEnv { base.env with edges := [0, 0, 1], sendAnswers := [true] }))
      (fun t => (t.trace.head?, t.wake)) = some (some (.irq .taken), 4#32) := by decide

/-- IQ-2. -/
theorem test_edge_taken :
    seen (step (ready.setEnv { base.env with inputs := [.edge] })) (fun t => (t.trace, t.wake)) =
      some ([.irq .taken], 5#32) := by decide

/-! ### Witnesses: a state and operands that meet the hypotheses of each statement -/

theorem test_witness_DecodeInvertsEncode : Instr.wf tc1 (.rawset 3#4 0x03#8) = true := by decide

theorem test_witness_EncodeInvertsDecode : decode tc1 0x18000113#32 = .ok (.dispatch true 1#3 3#4) := rfl

theorem test_witness_OneRowMatches : decode tc1 0x18000113#32 = .ok (.dispatch true 1#3 3#4) := rfl

theorem test_witness_illegal : Illegal tc1 0x04000001#32 := by
  intro i h
  have e : decode tc1 0x04000001#32 = .error .reservedBit := rfl
  rw [e] at h
  cases h

theorem test_witness_WordsOutsideTheTableAreIllegal :
    (opField 0x00000000#32).toNat = 0 ∧ 0x11 ≤ (opField 0x44000000#32).toNat ∧
      (∀ r ∈ opTable, matchesRow 0x04000001#32 r = false) ∧ (0x06000000#32).getLsbD 25 = true ∧
      (base.setEnv { base.env with inputs := [.command 0x04000001#32] }).cfg = tc1 :=
  ⟨by decide, by decide, by simp [opTable, matchesRow], by decide, rfl⟩

theorem test_witness_RangeChecksAtDecode :
    tc1.rows ≤ (2#3).toNat ∧ tc1.cols ≤ (4#4).toNat ∧ 0x04#8 &&& ~~~ tc1.rowMask ≠ 0#8 ∧
      ({ tc1 with cols0 := 0, cols1 := 0 } : Params).cols = 0 := by decide

theorem test_witness_RangeChecksAtDecode_other_command :
    (∀ b r c, Instr.cycle ≠ .dispatch b r c) ∧ (∀ c v, Instr.cycle ≠ .rawset c v) := by
  constructor <;> intros <;> simp

theorem test_witness_StepRunsThePresentedCommand :
    (base.setEnv { base.env with inputs := [.command 0x0C000000#32] }).env.inputs = .command 0x0C000000#32 :: [] ∧
      decode tc1 0x0C000000#32 = .ok .scan := ⟨rfl, rfl⟩

theorem test_witness_InterruptEdgeEffect :
    (ready.setEnv { base.env with inputs := [.edge] }).env.inputs = [.edge] ∧
      ready.dev.irqEn = true ∧ base.dev.irqEn = false := by decide

theorem test_witness_IdleStepKeepsState : base.env.inputs = [] := by decide

theorem test_witness_ResetMeetsInvariant : tc1.valid = true := by decide

theorem test_witness_zero_snapshot : SnapOk tc1 [0#8, 0#8, 0#8, 0#8] := ⟨by decide, by decide⟩

theorem test_witness_EveryStepKeepsInvariant : Inv base ∧ step base = .next base := by
  have z := test_witness_zero_snapshot
  have h : base.snap.hist = [[0#8, 0#8, 0#8, 0#8]] := by decide
  refine ⟨⟨by decide, z, by decide, ?_, z, z, ?_, by decide, by decide, by decide, by decide, by decide, by decide,
    by decide⟩, rfl⟩
  · intro t m
    rw [h] at m
    rw [List.mem_singleton.mp m]
    exact z
  · unfold Slots.Compact; decide

theorem test_witness_StatusCodesByCommand :
    isDriver (.readByte .chip0 0#8) = true ∧ sends .cycle = true ∧ isDriver .scan = false ∧ sends .scan = false ∧
      Instr.scan.wf base.cfg = true ∧ (Instr.dispatch true 2#3 0#4).wf base.cfg = false := by decide

theorem test_witness_OnlyTheNamedCommandsWrite :
    writesRaw .init = false ∧ writesFilter .scan = false ∧ dispatches .filter = false ∧ writesKeys .transmit = false ∧
      writesKeys .scan = false ∧ sends .scan = false ∧ sends .diff = false ∧ Instr.scan ≠ .init ∧
      Instr.scan ≠ .diff ∧ Instr.scan ≠ .cycle ∧ Instr.diff ≠ .scan := by decide

theorem test_witness_ReadByteResult :
    (answering base [3#8] [] []).env.nextStatus ≠ 0#8 ∧
      (answering base [0#8] [byteRead 5#8 0#8] []).env.nextStatus = 0#8 ∧
      (answering base [0#8] [byteRead 5#8 0#8] []).env.dropStatus.nextRead.status = 0#8 ∧
      (answering base [0#8] [byteRead 5#8 4#8] []).env.dropStatus.nextRead.status ≠ 0#8 := by decide

theorem test_witness_ReadWordResult :
    (answering base [3#8] [] []).env.nextStatus ≠ 0#8 ∧
      (answering base [0#8] [⟨1#8, 2#8, 0#8⟩] []).env.nextStatus = 0#8 ∧
      (answering base [0#8] [⟨1#8, 2#8, 0#8⟩] []).env.dropStatus.nextRead.status = 0#8 := by decide

theorem test_witness_ColumnSelectIsActiveLow : 7 < 8 ∧ (colSelect 7).getLsbD 7 = false ∧
    seen (exec .scan (answering ready (List.replicate 10 0#8) (List.replicate 4 (byteRead 1#8 0#8)) []))
      (fun t => decide (Event.busW 0x21#7 [0xC0#8, 0xFD#8] 0#8 ∈ t.trace)) = some true := by decide

/-- Exactly as many answers as the statement asks for. -/
theorem test_witness_ScanSamplesReadyChipsInOrder :
    (∀ a ∈ (answering ready (List.replicate 10 0#8) (List.replicate 4 (byteRead 1#8 0#8)) []).env.writeAnswers,
        a = 0#8) ∧
      2 * tc1.cols + 2 ≤ (List.replicate 10 0#8).length ∧
      tc1.cols ≤ (List.replicate 4 (byteRead 1#8 0#8)).length := by decide

theorem test_witness_FailedBusCallZeroesItsColumn :
    (answering ready [1#8] [] []).env.nextStatus ≠ 0#8 ∧
      (answering ready [0#8, 1#8] [] []).env.dropStatus.nextStatus ≠ 0#8 ∧
      (answering ready [0#8, 0#8] [byteRead 1#8 2#8] []).env.dropStatus.dropStatus.nextRead.status ≠ 0#8 := by
  decide

/-- S-6: chip 0's park write fails; exactly as many answers as the statement asks for. -/
theorem test_witness_FailedParkWriteIsIgnored :
    ready.dev.ready0 = true ∧ ready.dev.ready1 = true ∧
      [0#8, 0#8, 0#8, 0#8, 1#8, 0#8, 0#8, 0#8, 0#8, 0#8] =
        List.replicate (2 * tc1.colsOf .chip0) 0#8 ++ 1#8 ::
          (List.replicate (2 * tc1.colsOf .chip1) 0#8 ++ 0#8 :: []) ∧
      tc1.cols ≤ (List.replicate 4 (byteRead 1#8 0#8)).length := by decide

/-- Masked at the start; and enabled, with no edge before `IRQ_EN <- 0` and edges after it. -/
theorem test_witness_ScanTakesNoEdge :
    ((ready.setDev ⟨true, true, true, false⟩).setEnv { base.env with edges := [1, 2] }).dev.irqEn = false ∧
      (ready.setEnv { base.env with edges := [0, 2, 1] }).dev.irqEn = true ∧
      (ready.setEnv { base.env with edges := [0, 2, 1] }).env.edges.headD 0 = 0 := by decide

/-- One edge, with the interrupt enabled and masked, and one that is the last scheduled. -/
theorem test_witness_EdgeInsideACommandTakesEffect :
    (ready.setEnv { base.env with edges := [1] }).env.edges = 1 :: [] ∧ ready.dev.irqEn = true ∧
      (base.setEnv { base.env with edges := [2, 1] }).env.edges = 2 :: [1] ∧ base.dev.irqEn = false := by decide

theorem test_witness_ScannerMachineRunsTheScan : ready.seq.scanState = .idle := by decide

theorem test_witness_InitConfiguresBothChips :
    (∀ a ∈ (answering base (List.replicate 6 0#8) [] []).env.writeAnswers, a = 0#8) ∧
      2 * (tc1.cfgSeq.length + 1) ≤ (List.replicate 6 0#8).length := by decide

/-- The first write of the sequence and the park write; in INIT, chip 0's park write and chip 1's first write. -/
theorem test_witness_InitStopsAtFirstFailure :
    0 ≤ base.cfg.cfgSeq.length ∧ 2 ≤ base.cfg.cfgSeq.length ∧ 1#8 ≠ 0#8 ∧
      (answering base [1#8] [] []).env.writeAnswers = List.replicate 0 0#8 ++ 1#8 :: [] ∧
      (answering base [0#8, 0#8, 1#8] [] []).env.writeAnswers = List.replicate 2 0#8 ++ 1#8 :: [] ∧
      (answering base [0#8, 0#8, 1#8, 0#8, 0#8, 0#8] [] []).env.writeAnswers =
        List.replicate 2 0#8 ++ 1#8 :: (List.replicate (tc1.cfgSeq.length + 1) 0#8 ++ []) ∧
      (answering base [0#8, 0#8, 0#8, 1#8] [] []).env.writeAnswers =
        List.replicate (tc1.cfgSeq.length + 1) 0#8 ++ (List.replicate 0 0#8 ++ 1#8 :: []) := by decide

theorem test_witness_FilterShiftsAndFlags : 1 < (State.resetWith (nofn .three)).cfg.histLen := by decide

theorem test_witness_SettleConfirmNeedsTwoEqualReads :
    base.cfg.policy = .settleConfirm ∧ base.snap.raw = histAt base.snap.hist 1 ∧
      (withRaw [1#8, 0#8, 0#8, 0#8] base).snap.raw ≠ histAt (withRaw [1#8, 0#8, 0#8, 0#8] base).snap.hist 1 := by
  decide

/-- Both taps 1, both taps 0, and taps that differ. -/
theorem test_witness_NofNAcceptsAgreedBits :
    (nofn .two).policy = .nofn ∧ 1 + 1 < (nofn .three).k ∧
      bitAt [1#8, 0#8, 1#8, 0#8] 0 0 = true ∧ bitAt [1#8, 0#8, 0#8, 0#8] 0 0 = true ∧
      bitAt [1#8, 0#8, 1#8, 0#8] 1 1 = false ∧ bitAt [1#8, 0#8, 0#8, 0#8] 1 1 = false ∧
      bitAt [1#8, 0#8, 1#8, 0#8] 2 0 ≠ bitAt [1#8, 0#8, 0#8, 0#8] 2 0 := by decide

/-- A bit of STABLE that changes at the last read that confirms it, under each policy. -/
theorem test_witness_ShortExcursionNeverReachesStable :
    tc1.confirmDepth ≤ [[1#8, 0#8, 0#8, 0#8]].length + 1 ∧
      bitAt (feed tc1 base.snap ([[1#8, 0#8, 0#8, 0#8]] ++ [[1#8, 0#8, 0#8, 0#8]])).stable 0 0 ≠
        bitAt (feed tc1 base.snap [[1#8, 0#8, 0#8, 0#8]]).stable 0 0 ∧
      (nofn .three).confirmDepth ≤ [[1#8, 0#8, 0#8, 0#8], [3#8, 0#8, 0#8, 0#8]].length + 1 ∧
      bitAt (feed (nofn .three) (State.resetWith (nofn .three)).snap
          ([[1#8, 0#8, 0#8, 0#8], [3#8, 0#8, 0#8, 0#8]] ++ [[1#8, 0#8, 0#8, 0#8]])).stable 0 0 ≠
        bitAt (feed (nofn .three) (State.resetWith (nofn .three)).snap
          [[1#8, 0#8, 0#8, 0#8], [3#8, 0#8, 0#8, 0#8]]).stable 0 0 := by decide

theorem test_witness_HeldBitIsConfirmedUnderNofN :
    (nofn .two).policy = .nofn ∧ [[3#8, 0#8, 0#8, 0#8], [2#8, 1#8, 0#8, 0#8]].length = (nofn .two).k ∧
      ∀ x ∈ [[3#8, 0#8, 0#8, 0#8], [2#8, 1#8, 0#8, 0#8]], bitAt x 0 1 = true := by decide

theorem test_witness_RawsetWritesOneElement :
    (Instr.rawset 3#4 0x03#8).wf base.cfg = true ∧ base.snap.raw.length = base.cfg.cols := by decide

/-- K-6: three differences, the layer key's second, every row in the matrix. -/
theorem test_witness_DiffRecordsAndLatches :
    edgeDispatch tc1.cols base.snap.stablePrev [1#8, 2#8, 1#8, 0#8] =
        [⟨0, 0, true⟩, ⟨1, 1, true⟩, ⟨0, 2, true⟩] ∧
      ∀ e ∈ edgeDispatch tc1.cols base.snap.stablePrev [1#8, 2#8, 1#8, 0#8], e.row < tc1.rows := by decide

/-- A first entry with a later one at its position, and one with an earlier one elsewhere. -/
theorem test_witness_first_entries :
    FirstEntry tc1 1 1 ⟨1, 1, .layerSwitch⟩ ∧ FirstEntry tc1 0 3 ⟨0, 3, .other 7#8⟩ ∧
      FirstEntry { tc1 with fkt := [⟨1, 1, .layerSwitch⟩, ⟨1, 1, .other 9#8⟩] } 1 1 ⟨1, 1, .layerSwitch⟩ :=
  ⟨⟨[], _, rfl, rfl, rfl, by decide⟩, ⟨[⟨1, 1, .layerSwitch⟩], [], rfl, rfl, rfl, by decide⟩,
    ⟨[], _, rfl, rfl, rfl, by decide⟩⟩

/-- The press clamps at layer 1, the release at layer 0; and one layer only. -/
theorem test_witness_LayerKeyMovesLayer :
    (Instr.dispatch true 1#3 1#4).wf base.cfg = true ∧ (Instr.dispatch false 1#3 1#4).wf base.cfg = true ∧
      FirstEntry base.cfg (1#3).toNat (1#4).toNat ⟨1, 1, .layerSwitch⟩ ∧ base.layer = 0 ∧
      (base.setLayer 1).layer = tc1.layers - 1 ∧ (State.resetWith { tc1 with layers := 1 }).cfg.layers = 1 :=
  ⟨by decide, by decide, test_witness_first_entries.1, rfl, rfl, rfl⟩

theorem test_witness_OtherActionOnlyRecords :
    (Instr.dispatch true 0#3 3#4).wf base.cfg = true ∧
      FirstEntry base.cfg (0#3).toNat (3#4).toNat ⟨0, 3, .other 7#8⟩ :=
  ⟨by decide, test_witness_first_entries.2.1⟩

/-- A mapped position, and K-7's position, which layer 1 does not map. -/
theorem test_witness_PressAddsCurrentLayerKeycode :
    (Instr.dispatch true 0#3 0#4).wf base.cfg = true ∧ NoEntry base.cfg (0#3).toNat (0#4).toNat ∧
      (Instr.dispatch true 1#3 2#4).wf base.cfg = true ∧ NoEntry base.cfg (1#3).toNat (2#4).toNat ∧
      (base.setLayer 1).cfg.keymapAt (base.setLayer 1).layer 1 2 = 0#8 := by
  unfold NoEntry; decide

/-- A modifier position, and a key in one slot; two codes on the first, by layer. -/
theorem test_witness_ReleaseRemovesEveryLayersKeycode :
    (Instr.dispatch false 1#3 0#4).wf base.cfg = true ∧ NoEntry base.cfg (1#3).toNat (0#4).toNat ∧
      base.cfg.modBit (base.cfg.keymapAt 0 1 0) = some 1 ∧ codesOf base.cfg 1 0 = [0xE1#8, 0xE0#8] ∧
      (Instr.dispatch false 0#3 1#4).wf base.cfg = true ∧ NoEntry base.cfg (0#3).toNat (1#4).toNat ∧
      base.cfg.keymapAt 1 0 1 ≠ 0#8 ∧ base.cfg.modBit (base.cfg.keymapAt 1 0 1) = none ∧
      (withSlots ⟨0x1F#8, 0#8, 0#8, 0#8, 0#8, 0#8⟩ base).report.slots.toList.count 0x1F#8 ≤ 1 := by
  unfold NoEntry; decide

theorem test_witness_OutOfRangeOperandsOnlyReport :
    (Instr.dispatch true 2#3 0#4).wf base.cfg = false ∧ (Instr.rawset 4#4 0#8).wf base.cfg = false ∧
      (Instr.rawset 3#4 0x04#8).wf base.cfg = false := by decide

/-- A full report and an empty one; keycode 0, a modifier, another keycode. -/
theorem test_witness_AddKeyResult :
    base.report.slots.Compact ∧
      (withSlots ⟨4#8, 5#8, 6#8, 7#8, 8#8, 9#8⟩ base).report.slots.Compact ∧
      base.cfg.modBit 0xE1#8 = some 1 ∧ 0x04#8 ≠ 0#8 ∧ base.cfg.modBit 0x04#8 = none := by
  unfold Slots.Compact; decide

theorem test_witness_RemoveKeyResult :
    (withSlots ⟨4#8, 5#8, 6#8, 0#8, 0#8, 0#8⟩ base).report.slots.Compact ∧
      (withSlots ⟨4#8, 5#8, 6#8, 7#8, 8#8, 9#8⟩ base).report.slots.Compact ∧
      base.cfg.modBit 0xE7#8 = some 7 ∧ 0x05#8 ≠ 0#8 ∧ base.cfg.modBit 0x05#8 = none := by
  unfold Slots.Compact; decide

/-- Keycode 0 changes nothing; keycode 04 does. -/
theorem test_witness_DirtyMarksExactlyChanges :
    seen (exec (.addKey 0#8) base) (fun t => (t.report.mods, t.report.slots)) =
        some (base.report.mods, base.report.slots) ∧
      seen (exec (.addKey 4#8) base) (fun t => (t.report.mods, t.report.slots)) ≠
        some (base.report.mods, base.report.slots) := by decide

theorem test_witness_SeventhKeyEvictsTheOldest :
    0x0A#8 ≠ 0#8 ∧ base.cfg.modBit 0x0A#8 = none ∧
      (∀ i : Fin 6, (withSlots ⟨4#8, 5#8, 6#8, 7#8, 8#8, 9#8⟩ base).report.slots.get i ≠ 0#8) ∧
      0x0A#8 ∉ (withSlots ⟨4#8, 5#8, 6#8, 7#8, 8#8, 9#8⟩ base).report.slots.toList ∧
      (withSlots ⟨4#8, 5#8, 6#8, 7#8, 8#8, 9#8⟩ base).report.slots.toList.count 4#8 = 1 := by decide

theorem test_witness_IsAnyResult :
    (base.setReport { base.report with mods := 0x80#8 }).report.mods ≠ 0#8 ∧
      (∃ i : Fin 6, (withSlots ⟨0#8, 0#8, 0#8, 0#8, 0#8, 9#8⟩ base).report.slots.get i ≠ 0#8) ∧
      EmptyReport base.report := by
  unfold EmptyReport; decide

theorem test_witness_AddRemoveRoundTrip : EmptyReport base.report := by
  unfold EmptyReport; decide

/-- A CYCLE whose send is rejected (CY-4), and one that ends with PENDING still 1: a release that K = 3 reads have not
confirmed. -/
theorem test_witness_CycleResult :
    base.env.edges = [] ∧ base.wake = 0#32 ∧ (base.setWake 5#32).wake ≠ 0#32 ∧
      seen (exec .cycle (answering (base.setReport { base.report with dirty := true }) [] [] [false]))
        (fun t => t.port) = some ⟨0x03#8, []⟩ ∧
      seen (exec .cycle ((State.resetWith (nofn .three)).setSnap { base.snap with
        stable := [1#8, 0#8, 0#8, 0#8], hist := [[1#8, 0#8, 0#8, 0#8], [1#8, 0#8, 0#8, 0#8]] }))
        (fun t => (t.snap.pending, t.seq.passCount)) = some (true, 1) := by decide

/-- CY-4's case beside it: dirty and rejected, dirty and accepted, not dirty. -/
theorem test_witness_CycleSendsExactlyWhenDirty :
    (cyclePasses base).report.dirty = false ∧
      (cyclePasses (answering (base.setReport { base.report with dirty := true }) [] [] [true])).report.dirty = true ∧
      (cyclePasses (answering (base.setReport { base.report with dirty := true }) [] [] [true])).env.nextAccepted
        = true ∧
      (cyclePasses (answering (base.setReport { base.report with dirty := true }) [] [] [false])).env.nextAccepted
        = false ∧
      seen (exec .cycle (answering (base.setReport { base.report with dirty := true }) [] [] [false]))
        (fun t => (t.port, t.report.lastSendOk)) = some (⟨0x03#8, []⟩, false) := by decide

/-- With REQUEUE_PASSES 3: a release that the first requeue pass confirms, so that two passes are left unused. -/
theorem test_witness_RequeueUntilSettledOrBound :
    (cyclePasses ((State.resetWith { tc1 with requeuePasses := 3 }).setSnap { base.snap with
      stable := [1#8, 0#8, 0#8, 0#8], hist := [[1#8, 0#8, 0#8, 0#8]] })).seq.passCount = 1 := by decide

/-- A key held over both reads: column 0 reads 01 in both passes. -/
def held : State :=
  answering ready (List.replicate 20 0#8)
    [byteRead 1#8 0#8, byteRead 0#8 0#8, byteRead 0#8 0#8, byteRead 0#8 0#8,
      byteRead 1#8 0#8, byteRead 0#8 0#8, byteRead 0#8 0#8, byteRead 0#8 0#8] []

theorem test_witness_RequeuePassConfirmsHeldChange :
    held.cfg.policy = .settleConfirm ∧
      (requeuePass (passBody held)).snap.raw = (passBody held).snap.raw ∧
      edgeDispatch tc1.cols (passBody held).snap.stable (passBody held).snap.raw = [⟨0, 0, true⟩] ∧
      (∀ e ∈ [(⟨0, 0, true⟩ : KeyEvent)], e.row < held.cfg.rows) := by decide

theorem test_witness_CycleBeforeInitScansNothing :
    base.dev.ready0 = false ∧ base.dev.ready1 = false := by decide

theorem test_witness_LoadrawLoadsEveryColumn :
    [3#8, 0#8, 1#8, 2#8].length = base.cfg.cols ∧ base.snap.raw.length = base.cfg.cols ∧
      ∀ v ∈ [3#8, 0#8, 1#8, 2#8], v &&& ~~~ base.cfg.rowMask = 0#8 := by decide

end Sys2Proof.Tests
end

section
/-! SUPPORT. What keeps the snapshots and the slots well-formed (R53 items 1 and 2, R32): one lemma per operation of
the scanner, the filter and the report assembler. -/

namespace Sys2Proof.Machine

/-! ### Masked bytes and snapshots -/

/-- The byte has no bit outside the mask. -/
def Masked (m v : Byte) : Prop :=
  v &&& ~~~m = 0#8

theorem masked_zero (m : Byte) : Masked m 0#8 := by
  simp [Masked]

theorem masked_and_mask (m v : Byte) : Masked m (v &&& m) := by
  simp [Masked, BitVec.and_assoc]

theorem Masked.and_right {m v : Byte} (h : Masked m v) (w : Byte) : Masked m (v &&& w) := by
  unfold Masked at *
  rw [BitVec.and_assoc, BitVec.and_comm w, ← BitVec.and_assoc, h, BitVec.zero_and]

theorem Masked.or {m v w : Byte} (hv : Masked m v) (hw : Masked m w) : Masked m (v ||| w) := by
  unfold Masked at *
  rw [BitVec.and_comm, BitVec.and_or_distrib_left, BitVec.and_comm _ v, BitVec.and_comm _ w, hv, hw, BitVec.or_self]

theorem Masked.foldl_and {m v : Byte} (h : Masked m v) (f : Nat → Byte) (l : List Nat) :
    Masked m (l.foldl (fun a j => a &&& f j) v) := by
  induction l generalizing v with
  | nil => exact h
  | cons j l ih => exact ih (h.and_right _)

theorem snapOk_zeroSnap (p : Params) : SnapOk p p.zeroSnap where
  length_eq := by simp [Params.zeroSnap]
  masked v hv := by rw [List.eq_of_mem_replicate hv]; exact masked_zero _

theorem SnapOk.set {p : Params} {t : Snapshot} (h : SnapOk p t) (i : Nat) {v : Byte} (hv : Masked p.rowMask v) :
    SnapOk p (t.set i v) where
  length_eq := by rw [List.length_set, h.length_eq]
  masked w hw := by
    obtain hw | rfl := List.mem_or_eq_of_mem_set hw
    · exact h.masked w hw
    · exact hv

theorem SnapOk.masked_snapAt {p : Params} {t : Snapshot} (h : SnapOk p t) (c : Nat) :
    Masked p.rowMask (snapAt t c) := by
  unfold snapAt
  by_cases hc : c < t.length
  · rw [List.getD_eq_getElem t _ hc]
    exact h.masked _ (List.getElem_mem hc)
  · rw [List.getD_eq_default t _ (Nat.le_of_not_lt hc)]
    exact masked_zero _

/-! ### The snapshot registers and FILTER -/

/-- The clauses of the invariant about RAW, HIST, STABLE and STABLE_PREV. -/
structure SnapRegsOk (p : Params) (r : SnapRegs) : Prop where
  raw_ok : SnapOk p r.raw
  hist_length : r.hist.length = p.histLen
  hist_ok : ∀ t ∈ r.hist, SnapOk p t
  stable_ok : SnapOk p r.stable
  prev_ok : SnapOk p r.stablePrev

theorem settleStable_ok {p : Params} {r : SnapRegs} (h : SnapRegsOk p r) : SnapOk p (settleStable r) := by
  unfold settleStable
  split
  · exact h.raw_ok
  · exact h.stable_ok

theorem nofnStable_ok {p : Params} {r : SnapRegs} (h : SnapRegsOk p r) : SnapOk p (nofnStable p r) where
  length_eq := by simp [nofnStable]
  masked v hv := by
    obtain ⟨c, -, rfl⟩ := List.mem_map.mp hv
    have ones : Masked p.rowMask (agreeOne p.histLen r c) := (h.raw_ok.masked_snapAt c).foldl_and _ _
    exact ((h.stable_ok.masked_snapAt c).or ones).and_right _

theorem nextStable_ok {p : Params} {r : SnapRegs} (h : SnapRegsOk p r) : SnapOk p (nextStable p r) := by
  unfold nextStable
  split
  · exact settleStable_ok h
  · exact nofnStable_ok h

theorem length_shiftHist {h : Nat} (raw : Snapshot) {hist : List Snapshot} (hl : hist.length = h) :
    (shiftHist h raw hist).length = h := by
  simp [shiftHist, hl]

theorem shiftHist_ok {p : Params} {raw : Snapshot} {hist : List Snapshot} (h : Nat) (hr : SnapOk p raw)
    (hh : ∀ t ∈ hist, SnapOk p t) : ∀ t ∈ shiftHist h raw hist, SnapOk p t := by
  intro t ht
  obtain rfl | ht := List.mem_cons.mp (List.mem_of_mem_take ht)
  · exact hr
  · exact hh t ht

theorem filterRegs_ok {p : Params} {r : SnapRegs} (h : SnapRegsOk p r) : SnapRegsOk p (filterRegs p r) where
  raw_ok := h.raw_ok
  hist_length := length_shiftHist r.raw h.hist_length
  hist_ok := shiftHist_ok p.histLen h.raw_ok h.hist_ok
  stable_ok := nextStable_ok h
  prev_ok := h.prev_ok

/-! ### RAW through a scan -/

/-- Whatever the bus answers, what a column's read stores has no bit at or above ROWS (R155). -/
theorem sampleStore_raw (c : Chip) (i : Nat) (s : State) :
    ∃ v, Masked s.cfg.rowMask v ∧ (sampleStore c i s).snap.raw = s.snap.raw.set (s.cfg.colIndex c i) v := by
  unfold sampleStore
  dsimp only
  split
  · exact ⟨(drvReadByte c s.cfg.regRowIn s).1.1 &&& s.cfg.rowMask, masked_and_mask _ _, by simp⟩
  · exact ⟨_, masked_zero _, by simp⟩

theorem scanColumn_raw (c : Chip) (s : State) (i : Nat) :
    ∃ v, Masked s.cfg.rowMask v ∧ (scanColumn c s i).snap.raw = s.snap.raw.set (s.cfg.colIndex c i) v := by
  unfold scanColumn
  dsimp only
  split
  · simpa using sampleStore_raw c i
      (scanAt .sample c i (waitFor .settle (scanAt .settle c i (selectWrite c i (scanAt .select c i s)).2)))
  · exact ⟨_, masked_zero _, by simp⟩

theorem scanColumns_raw_ok (c : Chip) (l : List Nat) {s : State} (h : SnapOk s.cfg s.snap.raw) :
    SnapOk s.cfg (l.foldl (scanColumn c) s).snap.raw := by
  induction l generalizing s with
  | nil => exact h
  | cons i l ih =>
    obtain ⟨v, hv, hraw⟩ := scanColumn_raw c s i
    have step := ih (s := scanColumn c s i) (by rw [hraw, scanColumn_cfg]; exact h.set _ hv)
    rwa [scanColumn_cfg] at step

theorem scanChip_raw_ok (c : Chip) {s : State} (h : SnapOk s.cfg s.snap.raw) :
    SnapOk s.cfg (scanChip c s).snap.raw := by
  unfold scanChip
  split
  · simpa using scanColumns_raw_ok c (List.range (s.cfg.colsOf c)) h
  · exact h

/-- A scan leaves a well-formed RAW whatever stood there before, since it begins with ZERO (R153). -/
theorem scanBody_raw_ok (s : State) : SnapOk s.cfg (scanBody s).snap.raw := by
  have begun : SnapOk (beginScan s).cfg (beginScan s).snap.raw := by simpa using snapOk_zeroSnap s.cfg
  have chip0 := scanChip_raw_ok .chip0 begun
  have chip1 := scanChip_raw_ok .chip1 (s := scanChip .chip0 (beginScan s)) (by simpa using chip0)
  simpa [scanBody] using chip1

/-! ### The slots stay compact -/

/-- Compactness slot by slot: behind each empty slot the next is empty. -/
theorem Slots.compact_iff (t : Slots) :
    t.Compact ↔ (t.s0 = 0#8 → t.s1 = 0#8) ∧ (t.s1 = 0#8 → t.s2 = 0#8) ∧ (t.s2 = 0#8 → t.s3 = 0#8) ∧
      (t.s3 = 0#8 → t.s4 = 0#8) ∧ (t.s4 = 0#8 → t.s5 = 0#8) := by
  constructor
  · intro h
    exact ⟨h 0 1 (by decide), h 1 2 (by decide), h 2 3 (by decide), h 3 4 (by decide), h 4 5 (by decide)⟩
  · rintro ⟨h0, h1, h2, h3, h4⟩
    simp [Slots.Compact, Slots.get, Slots.toList, Fin.forall_fin_succ]
    tauto

theorem Slots.Compact.insert {t : Slots} (h : t.Compact) {k : Byte} (hk : k ≠ 0#8) : (t.insert k).Compact := by
  rw [Slots.compact_iff] at h ⊢
  unfold Slots.insert
  split_ifs <;> simp_all

theorem Slots.Compact.remove {t : Slots} (h : t.Compact) (k : Byte) : (t.remove k).Compact := by
  rw [Slots.compact_iff] at h ⊢
  unfold Slots.remove
  split_ifs <;> simp_all

theorem addKeyReport_compact (p : Params) (k : Byte) {r : Report} (h : r.slots.Compact) :
    (addKeyReport p k r).slots.Compact := by
  unfold addKeyReport
  split
  · exact h
  · split
    · exact h
    · exact h.insert ‹_›

theorem removeKeyReport_compact (p : Params) (k : Byte) {r : Report} (h : r.slots.Compact) :
    (removeKeyReport p k r).slots.Compact := by
  unfold removeKeyReport
  split
  · exact h
  · split
    · exact h
    · exact h.remove k

end Sys2Proof.Machine
end

section
/-! SUPPORT. The invariant in three parts, and the part that holds inside a command too: every operation keeps it. -/

namespace Sys2Proof.Machine

/-! ### The invariant in three parts: the registers that last, the sequencing registers, the port -/

/-- The clauses of the invariant about the parameters, the snapshots, the slots and LAYER: those that hold inside a
command too. -/
structure RegsOk (s : State) : Prop where
  valid : s.cfg.valid = true
  snaps : SnapRegsOk s.cfg s.snap
  compact : s.report.slots.Compact
  layer_lt : s.layer < s.cfg.layers

/-- The scanner rests: SCAN_STATE is IDLE and SCAN_COL in its range (R46). -/
structure ScanIdle (q : SeqRegs) : Prop where
  scan_idle : q.scanState = .idle
  scan_col : q.scanCol ≤ 8

/-- The sequencing registers between commands (R46, R47). -/
structure SeqOk (p : Params) (q : SeqRegs) : Prop where
  scan : ScanIdle q
  pipe_idle : q.pipePhase = .idle
  pass_count : q.passCount ≤ p.requeuePasses

/-- STATUS and RESULT in their ranges (R45, R281). -/
structure PortOk (v : PortRegs) : Prop where
  status_code : v.status.toNat ≤ 3
  result_length : v.result.length ≤ 9

theorem inv_iff (s : State) : Inv s ↔ RegsOk s ∧ SeqOk s.cfg s.seq ∧ PortOk s.port := by
  constructor
  · intro h
    exact ⟨⟨h.valid, ⟨h.raw_ok, h.hist_length, h.hist_ok, h.stable_ok, h.prev_ok⟩, h.compact, h.layer_lt⟩,
      ⟨⟨h.scan_idle, h.scan_col⟩, h.pipe_idle, h.pass_count⟩, ⟨h.status_code, h.result_length⟩⟩
  · rintro ⟨⟨hv, ⟨hr, hl, hh, hs, hp⟩, hc, hy⟩, ⟨⟨hi, hcol⟩, hph, hpc⟩, ⟨hst, hres⟩⟩
    exact ⟨hv, hr, hl, hh, hs, hp, hc, hy, hi, hcol, hph, hpc, hst, hres⟩

namespace RegsOk

variable {s : State}

/-- An operation that leaves the parameters, the snapshots, the slots and LAYER alone. -/
theorem of_eq {t : State} (h : RegsOk s) (hcfg : t.cfg = s.cfg) (hsnap : t.snap = s.snap)
    (hslots : t.report.slots = s.report.slots) (hlayer : t.layer = s.layer) : RegsOk t where
  valid := by rw [hcfg]; exact h.valid
  snaps := by rw [hcfg, hsnap]; exact h.snaps
  compact := by rw [hslots]; exact h.compact
  layer_lt := by rw [hcfg, hlayer]; exact h.layer_lt

theorem setSnap (h : RegsOk s) {v : SnapRegs} (hv : SnapRegsOk s.cfg v) : RegsOk (s.setSnap v) :=
  ⟨h.valid, hv, h.compact, h.layer_lt⟩

theorem setReport (h : RegsOk s) {v : Report} (hv : v.slots.Compact) : RegsOk (s.setReport v) :=
  ⟨h.valid, h.snaps, hv, h.layer_lt⟩

theorem setLayer (h : RegsOk s) {v : Nat} (hv : v < s.cfg.layers) : RegsOk (s.setLayer v) :=
  ⟨h.valid, h.snaps, h.compact, hv⟩

theorem emit (h : RegsOk s) (e : Event) : RegsOk (emit e s) :=
  h.of_eq (by simp) (by simp) (by simp) (by simp)

theorem addKey (h : RegsOk s) (k : Byte) : RegsOk (addKey k s) :=
  h.setReport (addKeyReport_compact s.cfg k h.compact)

theorem removeKey (h : RegsOk s) (k : Byte) : RegsOk (removeKey k s) :=
  h.setReport (removeKeyReport_compact s.cfg k h.compact)

theorem layerSwitch (h : RegsOk s) (pressed : Bool) : RegsOk (layerSwitch pressed s) := by
  have hlt := h.layer_lt
  refine h.setLayer ?_
  split <;> omega

theorem invokeAction (h : RegsOk s) (a : Action) (pressed : Bool) : RegsOk (invokeAction a pressed s) := by
  cases a with
  | layerSwitch => exact h.layerSwitch pressed
  | other id => exact h.emit _

theorem pressKey (h : RegsOk s) (row col : Nat) : RegsOk (pressKey row col s) := by
  unfold Machine.pressKey
  dsimp only
  split
  · exact h.addKey _
  · exact h

theorem releaseOnLayer (h : RegsOk s) (row col l : Nat) : RegsOk (releaseOnLayer row col s l) := by
  unfold Machine.releaseOnLayer
  dsimp only
  split
  · exact h.removeKey _
  · exact h

theorem releaseKey (h : RegsOk s) (row col : Nat) : RegsOk (releaseKey row col s) :=
  List.foldlRecOn _ _ h fun _ ht l _ => ht.releaseOnLayer row col l

theorem dispatchEvent (h : RegsOk s) (row col : Nat) (pressed : Bool) : RegsOk (dispatchEvent row col pressed s) := by
  unfold Machine.dispatchEvent
  split
  · exact h.invokeAction _ pressed
  · split
    · exact h.pressKey row col
    · exact h.releaseKey row col

theorem emitAndDispatch (h : RegsOk s) (e : KeyEvent) : RegsOk (emitAndDispatch s e) :=
  (h.emit _).dispatchEvent _ _ _

theorem diffBody (h : RegsOk s) : RegsOk (diffBody s) := by
  have dispatched :
      RegsOk ((edgeDispatch s.cfg.cols s.snap.stablePrev s.snap.stable).foldl Machine.emitAndDispatch s) :=
    List.foldlRecOn _ _ h fun _ ht e _ => ht.emitAndDispatch e
  obtain ⟨hraw, hlen, hhist, hstable, -⟩ := dispatched.snaps
  exact dispatched.setSnap ⟨hraw, hlen, hhist, hstable, hstable⟩

theorem filterBody (h : RegsOk s) : RegsOk (filterBody s) :=
  h.setSnap (filterRegs_ok h.snaps)

theorem scanBody (h : RegsOk s) : RegsOk (scanBody s) where
  valid := by simpa using h.valid
  snaps :=
    { raw_ok := by simpa using scanBody_raw_ok s
      hist_length := by simpa using h.snaps.hist_length
      hist_ok := by simpa using h.snaps.hist_ok
      stable_ok := by simpa using h.snaps.stable_ok
      prev_ok := by simpa using h.snaps.prev_ok }
  compact := by simpa using h.compact
  layer_lt := by simpa using h.layer_lt

theorem initBody (h : RegsOk s) : RegsOk (initBody s) :=
  h.of_eq (by simp) (by simp) (by simp) (by simp)

theorem rawset (h : RegsOk s) (c : Nat) {v : Byte} (hv : Masked s.cfg.rowMask v) :
    RegsOk (s.setSnap { s.snap with raw := s.snap.raw.set c v }) :=
  h.setSnap ⟨h.snaps.raw_ok.set c hv, h.snaps.hist_length, h.snaps.hist_ok, h.snaps.stable_ok, h.snaps.prev_ok⟩

theorem transmit (h : RegsOk s) : RegsOk (transmit s).2 :=
  h.of_eq (by simp) (by simp) (by simp) (by simp)

/-! The parts of CYCLE -/

theorem passBody (h : RegsOk s) : RegsOk (passBody s) :=
  h.scanBody.filterBody.diffBody

theorem setSeq (h : RegsOk s) (v : SeqRegs) : RegsOk (s.setSeq v) :=
  h.of_eq rfl rfl rfl rfl

theorem requeuePass (h : RegsOk s) : RegsOk (requeuePass s) :=
  ((h.emit (.wait .debounce)).setSeq _).passBody

theorem requeueLoop (h : RegsOk s) (n : Nat) : RegsOk (requeueLoop n s) := by
  induction n generalizing s with
  | zero => exact h
  | succ n ih =>
    unfold Machine.requeueLoop
    split
    · exact ih h.requeuePass
    · exact h

theorem cyclePasses (h : RegsOk s) : RegsOk (cyclePasses s) :=
  ((h.setSeq _).setSeq _).passBody.requeueLoop _

theorem sendStep (h : RegsOk s) : RegsOk (sendStep s).2 := by
  unfold Machine.sendStep
  split
  · exact h.transmit
  · exact h

end RegsOk

end Sys2Proof.Machine
end

section
/-! SUPPORT. SCAN and CYCLE leave the sequencing registers at rest (R46, R47), and every command is a body and then
one write of STATUS and RESULT (R45). -/

namespace Sys2Proof.Machine

/-! ### The sequencing registers through a scan and through CYCLE -/

theorem scanBody_scanIdle (s : State) : ScanIdle (scanBody s).seq where
  scan_idle := scanBody_scanState s
  scan_col := by
    simp only [scanBody, endScan, State.setEnv_seq, State.setSeq_seq]
    exact Nat.le_of_lt_succ (Fin.isLt _)

/-- A pass leaves the scanner at rest whatever state it starts from. -/
theorem passBody_scanIdle (s : State) : ScanIdle (passBody s).seq := by
  simpa [passBody] using scanBody_scanIdle s

theorem requeueLoop_scanIdle (n : Nat) {s : State} (h : ScanIdle s.seq) : ScanIdle (requeueLoop n s).seq := by
  induction n generalizing s with
  | zero => exact h
  | succ n ih =>
    unfold requeueLoop
    split
    · exact ih (passBody_scanIdle _)
    · exact h

theorem requeuePass_passCount (s : State) : (requeuePass s).seq.passCount = s.seq.passCount + 1 := by
  simp [requeuePass, setPassCount]

theorem requeueLoop_passCount_le (n : Nat) (s : State) :
    (requeueLoop n s).seq.passCount ≤ s.seq.passCount + n := by
  induction n generalizing s with
  | zero => exact le_rfl
  | succ n ih =>
    unfold requeueLoop
    split
    · have := ih (requeuePass s)
      rw [requeuePass_passCount] at this
      omega
    · omega

theorem cyclePasses_cfg (s : State) : (cyclePasses s).cfg = s.cfg := by
  simp [cyclePasses, setPassCount, setPhase]

theorem cyclePasses_scanIdle (s : State) : ScanIdle (cyclePasses s).seq :=
  requeueLoop_scanIdle _ (passBody_scanIdle _)

theorem cyclePasses_passCount_le (s : State) : (cyclePasses s).seq.passCount ≤ s.cfg.requeuePasses := by
  have h := requeueLoop_passCount_le s.cfg.requeuePasses (passBody (setPassCount 0 (setPhase .pass s)))
  rw [passBody_seq_passCount] at h
  simpa [cyclePasses, setPassCount] using h

@[simp] theorem sendStep_cfg (s : State) : (sendStep s).2.cfg = s.cfg := by
  unfold sendStep; split <;> simp

@[simp] theorem sendStep_seq (s : State) : (sendStep s).2.seq = s.seq := by
  unfold sendStep; split <;> simp

@[simp] theorem sendStep_dev (s : State) : (sendStep s).2.dev = s.dev := by
  unfold sendStep; split <;> simp

theorem statusOk_le : statusOk.toNat ≤ 3 := by decide

theorem statusIllegal_le : statusIllegal.toNat ≤ 3 := by decide

theorem sendStep_status_le (s : State) : (sendStep s).1.toNat ≤ 3 := by
  unfold sendStep
  split
  · dsimp only
    split
    · exact statusOk_le
    · decide
  · exact statusOk_le

/-- CYCLE's writes before its STATUS write (R261). -/
def cycleBody (s : State) : State :=
  setPhase .idle (waitFor .debounce (wakeDecrement (setPhase .finish (sendStep (setPhase .send (cyclePasses s))).2)))

@[simp] theorem cycleBody_cfg (s : State) : (cycleBody s).cfg = s.cfg := by
  simp [cycleBody, setPhase, cyclePasses_cfg]

theorem cycleBody_seq (s : State) : (cycleBody s).seq = { (cyclePasses s).seq with pipePhase := .idle } := by
  simp [cycleBody, setPhase]

theorem cycleBody_seqOk (s : State) : SeqOk s.cfg (cycleBody s).seq := by
  rw [cycleBody_seq]
  obtain ⟨idle, col⟩ := cyclePasses_scanIdle s
  exact ⟨⟨idle, col⟩, rfl, cyclePasses_passCount_le s⟩

theorem RegsOk.cycleBody {s : State} (h : RegsOk s) : RegsOk (cycleBody s) := by
  have sent : RegsOk (Machine.sendStep (setPhase .send (Machine.cyclePasses s))).2 := (h.cyclePasses.setSeq _).sendStep
  exact sent.of_eq (by simp [Machine.cycleBody, setPhase]) (by simp [Machine.cycleBody, setPhase])
    (by simp [Machine.cycleBody, setPhase]) (by simp [Machine.cycleBody, setPhase])

/-! ### Every command is a body and then one write of STATUS and RESULT (R45) -/

/-- What a command writes but for STATUS and RESULT. -/
def execBody (i : Instr) (s : State) : State :=
  match i with
  | .init => initBody s
  | .cycle => cycleBody s
  | .scan => scanBody s
  | .filter => filterBody s
  | .diff => diffBody s
  | .dispatch pressed row col =>
    if row.toNat < s.cfg.rows ∧ col.toNat < s.cfg.cols then dispatchEvent row.toNat col.toNat pressed s else s
  | .addKey kc => addKey kc s
  | .removeKey kc => removeKey kc s
  | .isAny => s
  | .serialize => s
  | .transmit => (transmit s).2
  | .writeByte ch reg val => (drvWriteByte ch reg val s).2
  | .writeWord ch reg val => (drvWriteWord ch reg val s).2
  | .readByte ch reg => (drvReadByte ch reg s).2
  | .readWord ch reg => (drvReadWord ch reg s).2
  | .rawset col val =>
    if col.toNat < s.cfg.cols ∧ val &&& ~~~ s.cfg.rowMask = 0#8 then
      s.setSnap { s.snap with raw := s.snap.raw.set col.toNat val }
    else s

/-- The outcome is the state `u` with a STATUS and a RESULT in their ranges. -/
def EndsWith (o : Host.Outcome State Fault Refusal) (u : State) : Prop :=
  ∃ v, PortOk v ∧ o = .next (u.setPort v)

theorem endsWith_complete {st : Byte} {res : List Byte} (u : State) (hst : st.toNat ≤ 3) (hres : res.length ≤ 9) :
    EndsWith (.next (complete st res u)) u :=
  ⟨⟨st, res⟩, ⟨hst, hres⟩, rfl⟩

/-- A command that reports OK with a result, or raises an error. -/
theorem endsWith_complete_or_raise (ok : Bool) {st : Byte} {res : List Byte} (u : State) (hst : st.toNat ≤ 3)
    (hres : res.length ≤ 9) : EndsWith (.next (if ok then complete statusOk res u else raise st u)) u := by
  cases ok
  · exact endsWith_complete u hst (Nat.zero_le 9)
  · exact endsWith_complete u statusOk_le hres

/-- A command with a range check: its body, or ILLEGAL_COMMAND alone (R106, R116). -/
theorem endsWith_complete_or_illegal (p : Prop) [Decidable p] (t s : State) :
    EndsWith (.next (if p then complete statusOk [] t else illegalCommand s)) (if p then t else s) := by
  split
  · exact endsWith_complete t statusOk_le (Nat.zero_le 9)
  · exact endsWith_complete s statusIllegal_le (Nat.zero_le 9)

/-- What any command can do: its body, then STATUS and RESULT. -/
theorem exec_endsWith_execBody (i : Instr) (s : State) : EndsWith (exec i s) (execBody i s) := by
  cases i with
  | init | scan | filter | diff | addKey | removeKey | isAny =>
    exact endsWith_complete _ statusOk_le (by simp)
  | serialize => exact endsWith_complete _ statusOk_le (by simp [serialize, Slots.toList])
  | cycle => exact endsWith_complete _ (sendStep_status_le _) (Nat.zero_le 9)
  | transmit | writeByte | writeWord | readByte | readWord =>
    exact endsWith_complete_or_raise _ _ (by decide) (by simp)
  | dispatch | rawset => exact endsWith_complete_or_illegal _ _ _

theorem execBody_cfg (i : Instr) (s : State) : (execBody i s).cfg = s.cfg := by
  cases i with
  | isAny | serialize => rfl
  | dispatch | rawset => dsimp only [execBody]; split <;> simp
  | _ => simp [execBody]

/-- Only SCAN and CYCLE write the sequencing registers (R52). -/
theorem execBody_seq (i : Instr) (s : State) (hscan : i ≠ .scan) (hcycle : i ≠ .cycle) :
    (execBody i s).seq = s.seq := by
  cases i with
  | scan => exact absurd rfl hscan
  | cycle => exact absurd rfl hcycle
  | isAny | serialize => rfl
  | dispatch | rawset => dsimp only [execBody]; split <;> simp
  | _ => simp [execBody]

end Sys2Proof.Machine
end

section
/-! PROOFS. The invariant of R53: the reset state meets it and every step keeps it. -/

namespace Sys2Proof.Machine

/-! ### The invariant is kept -/

theorem RegsOk.execBody {s : State} (h : RegsOk s) (i : Instr) : RegsOk (execBody i s) := by
  cases i with
  | init => exact h.initBody
  | cycle => exact h.cycleBody
  | scan => exact h.scanBody
  | filter => exact h.filterBody
  | diff => exact h.diffBody
  | dispatch pressed row col =>
    dsimp only [Machine.execBody]
    split
    · exact h.dispatchEvent _ _ _
    · exact h
  | addKey kc => exact h.addKey kc
  | removeKey kc => exact h.removeKey kc
  | isAny => exact h
  | serialize => exact h
  | transmit => exact h.transmit
  | writeByte | writeWord | readByte | readWord =>
    exact h.of_eq (by simp [Machine.execBody]) (by simp [Machine.execBody]) (by simp [Machine.execBody])
      (by simp [Machine.execBody])
  | rawset col val =>
    dsimp only [Machine.execBody]
    split
    · next hwf => exact h.rawset _ hwf.2
    · exact h

/-- A scan leaves PIPE_PHASE and PASS_COUNT alone and the scanner at rest. -/
theorem SeqOk.scanBody {s : State} (h : SeqOk s.cfg s.seq) : SeqOk s.cfg (scanBody s).seq where
  scan := scanBody_scanIdle s
  pipe_idle := by simpa using h.pipe_idle
  pass_count := by simpa using h.pass_count

theorem SeqOk.execBody {s : State} (h : SeqOk s.cfg s.seq) (i : Instr) : SeqOk s.cfg (execBody i s).seq := by
  by_cases hscan : i = .scan
  · subst hscan; exact h.scanBody
  by_cases hcycle : i = .cycle
  · subst hcycle; exact cycleBody_seqOk s
  rw [execBody_seq i s hscan hcycle]; exact h

theorem Inv.exec {s t : State} (h : Inv s) {i : Instr} (he : exec i s = .next t) : Inv t := by
  obtain ⟨hregs, hseq, -⟩ := (inv_iff s).mp h
  obtain ⟨v, hport, hv⟩ := exec_endsWith_execBody i s
  obtain rfl : (Machine.execBody i s).setPort v = t := Host.Outcome.next.inj (hv.symm.trans he)
  refine (inv_iff _).mpr ⟨(hregs.execBody i).of_eq rfl rfl rfl rfl, ?_, hport⟩
  rw [State.setPort_cfg, State.setPort_seq, execBody_cfg]
  exact hseq.execBody i

/-- The registers of the invariant are all the invariant reads. -/
theorem Inv.of_eq {s t : State} (h : Inv s) (hcfg : t.cfg = s.cfg) (hsnap : t.snap = s.snap)
    (hreport : t.report = s.report) (hlayer : t.layer = s.layer) (hseq : t.seq = s.seq) (hport : t.port = s.port) :
    Inv t := by
  obtain ⟨rok, sok, pok⟩ := (inv_iff s).mp h
  exact (inv_iff t).mpr ⟨rok.of_eq hcfg hsnap (by rw [hreport]) hlayer, by rwa [hcfg, hseq], by rwa [hport]⟩

theorem Inv.illegalCommand {s : State} (h : Inv s) : Inv (illegalCommand s) := by
  obtain ⟨rok, sok, -⟩ := (inv_iff s).mp h
  exact (inv_iff _).mpr ⟨rok.of_eq rfl rfl rfl rfl, sok, ⟨statusIllegal_le, Nat.zero_le 9⟩⟩

theorem Inv.runWord {s t : State} (h : Inv s) {w : Word} (hr : runWord w s = .next t) : Inv t := by
  unfold Machine.runWord at hr
  split at hr
  · exact h.exec hr
  · cases hr
    exact h.illegalCommand

theorem Inv.dropInput {s : State} (h : Inv s) : Inv (dropInput s) :=
  h.of_eq rfl rfl rfl rfl rfl rfl

theorem Inv.irqEdge {s : State} (h : Inv s) : Inv (irqEdge s) :=
  h.of_eq (by simp) (by simp) (by simp) (by simp) (by simp) (by simp)

theorem Inv.step {s t : State} (h : Inv s) (hs : step s = .next t) : Inv t := by
  unfold Machine.step at hs
  split at hs
  · cases hs
    exact h
  · exact h.dropInput.runWord hs
  · cases hs
    exact h.dropInput.irqEdge

/-! ### Reset -/

theorem snapRegsOk_resetWith (p : Params) : SnapRegsOk p (State.resetWith p).snap where
  raw_ok := snapOk_zeroSnap p
  hist_length := List.length_replicate
  hist_ok t ht := by rw [List.eq_of_mem_replicate ht]; exact snapOk_zeroSnap p
  stable_ok := snapOk_zeroSnap p
  prev_ok := snapOk_zeroSnap p

theorem slots_compact_empty : Slots.Compact ⟨0#8, 0#8, 0#8, 0#8, 0#8, 0#8⟩ := by
  simp [Slots.compact_iff]

theorem layers_pos_of_valid {p : Params} (h : p.valid = true) : 0 < p.layers := by
  simp only [Params.valid, Bool.and_eq_true, decide_eq_true_eq] at h
  omega

theorem inv_resetWith {p : Params} (h : p.valid = true) : Inv (State.resetWith p) :=
  (inv_iff _).mpr
    ⟨⟨h, snapRegsOk_resetWith p, slots_compact_empty, layers_pos_of_valid h⟩,
      ⟨⟨rfl, Nat.zero_le 8⟩, rfl, Nat.zero_le _⟩, ⟨statusOk_le, Nat.zero_le 9⟩⟩

/-- Settles O12: the registers at reset meet the invariant part by part, and the environment is not read. -/
theorem resetMeetsInvariant : Obligations.ResetMeetsInvariant :=
  ⟨fun _ _ hp => (inv_resetWith hp).of_eq rfl rfl rfl rfl rfl rfl, rfl, inv_resetWith (by decide)⟩

/-- Settles O13: the step takes an input, which the invariant does not read; each command keeps the lasting registers
well-formed, leaves the sequencing registers at rest and ends with one write of STATUS and RESULT. -/
theorem everyStepKeepsInvariant : Obligations.EveryStepKeepsInvariant :=
  fun _ _ h hs => h.step hs

end Sys2Proof.Machine
end

section
/-! PROOFS. R52's access table, one lemma per register over all commands. -/

namespace Sys2Proof.Machine

open Sys2Proof.Claims

/-! ### Each register of R52's table and the commands that leave it alone -/

theorem execBody_raw {i : Instr} (s : State) (h : writesRaw i = false) : (execBody i s).snap.raw = s.snap.raw := by
  cases i with
  | scan | cycle | rawset => cases h
  | isAny | serialize => rfl
  | dispatch => dsimp only [execBody]; split <;> simp
  | _ => simp [execBody]

theorem execBody_filterRegs {i : Instr} (s : State) (h : writesFilter i = false) :
    (execBody i s).snap.hist = s.snap.hist ∧ (execBody i s).snap.stable = s.snap.stable ∧
      (execBody i s).snap.pending = s.snap.pending := by
  cases i with
  | filter | cycle => cases h
  | dispatch | rawset => dsimp only [execBody]; split <;> simp
  | _ => simp [execBody]

theorem execBody_stablePrev {i : Instr} (s : State) (hdiff : i ≠ .diff) (hcycle : i ≠ .cycle) :
    (execBody i s).snap.stablePrev = s.snap.stablePrev := by
  cases i with
  | diff => exact absurd rfl hdiff
  | cycle => exact absurd rfl hcycle
  | isAny | serialize => rfl
  | dispatch | rawset => dsimp only [execBody]; split <;> simp
  | _ => simp [execBody]

theorem execBody_layer {i : Instr} (s : State) (h : dispatches i = false) : (execBody i s).layer = s.layer := by
  cases i with
  | dispatch | diff | cycle => cases h
  | isAny | serialize => rfl
  | rawset => dsimp only [execBody]; split <;> simp
  | _ => simp [execBody]

/-- Of the commands that write no key, TRANSMIT alone touches the report registers, and only its two flags. -/
theorem execBody_report {i : Instr} (s : State) (hkeys : writesKeys i = false) (hsends : sends i = false) :
    (execBody i s).report = s.report := by
  cases i with
  | addKey | removeKey | dispatch | diff => cases hkeys
  | transmit | cycle => cases hsends
  | isAny | serialize => rfl
  | rawset => dsimp only [execBody]; split <;> simp
  | _ => simp [execBody]

theorem execBody_sameKeys {i : Instr} (s : State) (h : writesKeys i = false) :
    SameKeys s.report (execBody i s).report := by
  cases hsends : sends i with
  | false => rw [execBody_report s h hsends]; exact ⟨rfl, rfl⟩
  | true =>
    cases i with
    | transmit => simp [execBody, SameKeys]
    | cycle => cases h
    | _ => cases hsends

theorem execBody_lastSendOk {i : Instr} (s : State) (h : sends i = false) :
    (execBody i s).report.lastSendOk = s.report.lastSendOk := by
  cases hkeys : writesKeys i with
  | false => rw [execBody_report s hkeys h]
  | true =>
    cases i with
    | addKey | removeKey | diff => simp [execBody]
    | dispatch => dsimp only [execBody]; split <;> simp
    | cycle => cases h
    | _ => cases hkeys

theorem cycleBody_dev (s : State) : (cycleBody s).dev = (cyclePasses s).dev := by
  simp [cycleBody, setPhase]

theorem execBody_ready {i : Instr} (s : State) (h : i ≠ .init) :
    (execBody i s).dev.ready0 = s.dev.ready0 ∧ (execBody i s).dev.ready1 = s.dev.ready1 ∧
      (execBody i s).dev.initialized = s.dev.initialized := by
  cases i with
  | init => exact absurd rfl h
  | cycle => simp [execBody, cycleBody_dev, cyclePasses, setPassCount, setPhase]
  | dispatch | rawset => dsimp only [execBody]; split <;> simp
  | _ => simp [execBody]

theorem execBody_irqEn {i : Instr} (s : State) (hinit : i ≠ .init) (hscan : i ≠ .scan) (hcycle : i ≠ .cycle) :
    (execBody i s).dev.irqEn = s.dev.irqEn := by
  cases i with
  | init => exact absurd rfl hinit
  | scan => exact absurd rfl hscan
  | cycle => exact absurd rfl hcycle
  | isAny | serialize => rfl
  | dispatch | rawset => dsimp only [execBody]; split <;> simp
  | _ => simp [execBody]

/-! ### WAKE moves only as interrupt edges move it, but for CYCLE's decrement (R264) -/

/-- A register update that touches neither the trace, WAKE nor the environment adds no event. -/
theorem actsSome_of_eq {s t : State} (htrace : t.trace = s.trace) (hcfg : t.cfg = s.cfg) (hwake : t.wake = s.wake)
    (henv : t.env = s.env) : ActsSome s t :=
  ⟨[], (Acts.refl s).congr (by simp) ⟨htrace, hcfg, hwake, by rw [henv], by rw [henv]⟩⟩

theorem actsSome_setDev (s : State) (v : DevRegs) : ActsSome s (s.setDev v) :=
  actsSome_of_eq rfl rfl rfl rfl

@[simp] theorem setReady_irqEn (d : DevRegs) (c : Chip) (b : Bool) : (d.setReady c b).irqEn = d.irqEn := by
  cases c <;> rfl

@[simp] theorem initChip_irqEn (c : Chip) (s : State) : (initChip c s).dev.irqEn = s.dev.irqEn := by
  unfold initChip; dsimp only; split <;> simp

theorem initBody_actsSome (s : State) : ActsSome s (initBody s) := by
  have chip0 : ActsSome s (initChip .chip0 (setIrqEn false s)) :=
    ActsSome.trans ⟨_, setIrqEn_acts false s⟩ (initChip_actsSome .chip0 _) (by simp)
  have chip1 := chip0.trans (initChip_actsSome .chip1 _) (by simp)
  refine ActsSome.trans (chip1.trans (actsSome_setDev _ _) ?_) ⟨_, setIrqEn_acts true _⟩ ?_ <;> simp

theorem transmit_actsSome (s : State) : ActsSome s (transmit s).2 :=
  ⟨_, (hidSend_acts (serialize s.cfg s.report) s).congr (by simp) (by simp [transmit])⟩

theorem drvReadWord_actsSome (c : Chip) (g : Byte) (s : State) : ActsSome s (drvReadWord c g s).2 := by
  by_cases h : s.env.nextStatus = 0#8
  · exact ⟨_, drvReadWord_acts_of_ok c g s h⟩
  · rw [drvReadWord_of_failed c g s h]; exact ⟨_, busWrite_acts _ _ _⟩

theorem execBody_actsSome {i : Instr} (s : State) (h : i ≠ .cycle) : ActsSome s (execBody i s) := by
  cases i with
  | cycle => exact absurd rfl h
  | init => exact initBody_actsSome s
  | scan => exact scanBody_actsSome s
  | diff => exact diffBody_actsSome s
  | filter | addKey | removeKey => exact actsSome_of_eq rfl rfl rfl rfl
  | isAny | serialize => exact .refl s
  | dispatch pressed row col =>
    dsimp only [execBody]
    split
    · exact dispatchEvent_actsSome _ _ _ _
    · exact .refl s
  | transmit => exact transmit_actsSome s
  | writeByte ch reg val => exact ⟨_, drvWriteByte_acts ch reg val s⟩
  | writeWord ch reg val => exact ⟨_, drvWriteWord_acts ch reg val s⟩
  | readByte ch reg => exact drvReadByte_actsSome ch reg s
  | readWord ch reg => exact drvReadWord_actsSome ch reg s
  | rawset =>
    dsimp only [execBody]
    split
    · exact actsSome_of_eq rfl rfl rfl rfl
    · exact .refl s

theorem ActsSome.wakeMoves {s t : State} (h : ActsSome s t) : WakeMoves s t :=
  let ⟨_, acts⟩ := h
  acts.wakeMoves

/-- Settles O16, register by register; the write of STATUS and RESULT that ends a command touches none of them. -/
theorem onlyTheNamedCommandsWrite : Obligations.OnlyTheNamedCommandsWrite := by
  intro i s
  obtain ⟨v, -, hexec⟩ := exec_endsWith_execBody i s
  exact ⟨(execBody i s).setPort v, hexec, execBody_raw s, execBody_filterRegs s, execBody_stablePrev s,
    execBody_layer s, execBody_sameKeys s, fun hkeys hsends => congrArg Report.dirty (execBody_report s hkeys hsends),
    execBody_lastSendOk s, execBody_ready s, execBody_irqEn s, fun h => (execBody_actsSome s h).wakeMoves,
    execBody_seq i s⟩

end Sys2Proof.Machine
end

section
/-! SUPPORT. Erasing what interrupt edges can touch (`eraseIrq`) commutes with every operation of the block (R94): one
equation per operation, which pulls the erasure out of the operation's argument. Where an operation reads a register,
the erased state shows the same one. -/

namespace Sys2Proof.Machine

/-! ### What the erased state shows -/

section Fields

variable (s : State)

@[simp] theorem eraseIrq_cfg : (eraseIrq s).cfg = s.cfg := rfl
@[simp] theorem eraseIrq_snap : (eraseIrq s).snap = s.snap := rfl
@[simp] theorem eraseIrq_layer : (eraseIrq s).layer = s.layer := rfl
@[simp] theorem eraseIrq_report : (eraseIrq s).report = s.report := rfl
@[simp] theorem eraseIrq_dev : (eraseIrq s).dev = s.dev := rfl
@[simp] theorem eraseIrq_wake : (eraseIrq s).wake = 0#32 := rfl
@[simp] theorem eraseIrq_seq : (eraseIrq s).seq = s.seq := rfl
@[simp] theorem eraseIrq_trace : (eraseIrq s).trace = ownTrace s := rfl
@[simp] theorem eraseIrq_env : (eraseIrq s).env = { s.env with edges := [] } := rfl

@[simp] theorem eraseIrq_eraseIrq : eraseIrq (eraseIrq s) = eraseIrq s := by
  simp [eraseIrq, ownTrace]

end Fields

/-! ### Register updates -/

section Updates

variable (s : State)

@[simp] theorem setSnap_eraseIrq (v : SnapRegs) : (eraseIrq s).setSnap v = eraseIrq (s.setSnap v) := rfl
@[simp] theorem setReport_eraseIrq (v : Report) : (eraseIrq s).setReport v = eraseIrq (s.setReport v) := rfl
@[simp] theorem setDev_eraseIrq (v : DevRegs) : (eraseIrq s).setDev v = eraseIrq (s.setDev v) := rfl
@[simp] theorem setSeq_eraseIrq (v : SeqRegs) : (eraseIrq s).setSeq v = eraseIrq (s.setSeq v) := rfl
@[simp] theorem setEnv_eraseIrq (v : Env) : (eraseIrq s).setEnv { v with edges := [] } = eraseIrq (s.setEnv v) := rfl

@[simp] theorem complete_eraseIrq (st : Byte) (res : List Byte) :
    complete st res (eraseIrq s) = eraseIrq (complete st res s) := rfl

theorem eraseIrq_setWake (v : Word) : eraseIrq (s.setWake v) = eraseIrq s := rfl

/-- A branch on what the erasure leaves alone. -/
theorem ite_eraseIrq (p : Prop) [Decidable p] (t : State) :
    (if p then eraseIrq s else eraseIrq t) = eraseIrq (if p then s else t) :=
  (apply_ite eraseIrq p s t).symm

end Updates

/-! ### The interrupt event and the places where it can fall -/

section Ops

variable (s : State)

theorem eraseIrq_irqEdge : eraseIrq (irqEdge s) = eraseIrq s := by
  obtain ⟨-, h⟩ | ⟨-, h⟩ := irqEdge_spec s <;> simp [h, eraseIrq, ownTrace, isIrq]

theorem eraseIrq_irqEdges (n : Nat) : eraseIrq (irqEdges n s) = eraseIrq s := by
  induction n generalizing s with
  | zero => rfl
  | succ n ih => rw [irqEdges, ih, eraseIrq_irqEdge]

/-- The erasure forgets whatever edges fall at an interleaving point. -/
theorem eraseIrq_interleave : eraseIrq (interleave s) = eraseIrq s := by
  unfold interleave
  split
  · rfl
  · rw [eraseIrq_irqEdges]; rfl

@[simp] theorem interleave_eraseIrq : interleave (eraseIrq s) = eraseIrq (interleave s) := by
  rw [interleave_of_no_edges _ rfl, eraseIrq_interleave]

/-- An event of the block's own stays in the erased trace. -/
theorem emit_eraseIrq {e : Event} (h : isIrq e = false) : emit e (eraseIrq s) = eraseIrq (emit e s) := by
  have htrace : ownTrace (emit e s) = ownTrace (interleave s) ++ [e] := by simp [ownTrace, emit_trace, h]
  rw [emit, interleave_eraseIrq, eraseIrq_trace, ← htrace]
  rfl

@[simp] theorem waitFor_eraseIrq (k : WaitKind) : waitFor k (eraseIrq s) = eraseIrq (waitFor k s) :=
  emit_eraseIrq s rfl

@[simp] theorem setIrqEn_eraseIrq (b : Bool) : setIrqEn b (eraseIrq s) = eraseIrq (setIrqEn b s) := by
  simp [setIrqEn]

/-- The decrement of an erased WAKE is an erased WAKE (R264). -/
@[simp] theorem wakeDecrement_eraseIrq : wakeDecrement (eraseIrq s) = eraseIrq (wakeDecrement s) := by
  simp only [wakeDecrement, interleave_eraseIrq, eraseIrq_wake, if_true, eraseIrq_setWake]
  rfl

@[simp] theorem busWrite_eraseIrq (a : BusAddr) (b : List Byte) :
    (busWrite a b (eraseIrq s)).2 = eraseIrq (busWrite a b s).2 := by
  simp only [busWrite, eraseIrq_env, Env.nextStatus_edges, Env.dropStatus_edges_with, setEnv_eraseIrq]
  exact emit_eraseIrq _ rfl

@[simp] theorem busRead_eraseIrq (a : BusAddr) (n : Nat) :
    (busRead a n (eraseIrq s)).2 = eraseIrq (busRead a n s).2 := by
  simp only [busRead, eraseIrq_env, Env.nextRead_edges, Env.dropRead_edges_with, setEnv_eraseIrq]
  exact emit_eraseIrq _ rfl

@[simp] theorem Env.dropAccepted_edges_with (e : Env) (l : List Nat) :
    Env.dropAccepted { e with edges := l } = { e.dropAccepted with edges := l } := by
  obtain ⟨_, _, _, _, a, _⟩ := e
  cases a <;> rfl

@[simp] theorem hidSend_eraseIrq (b : List Byte) : (hidSend b (eraseIrq s)).2 = eraseIrq (hidSend b s).2 := by
  simp only [hidSend, eraseIrq_env, Env.nextAccepted_edges, Env.dropAccepted_edges_with, setEnv_eraseIrq]
  exact emit_eraseIrq _ rfl

/-! ### The driver: a call's answer is the same, its state the erased one -/

@[simp] theorem drvWriteByte_eraseIrq (c : Chip) (g v : Byte) :
    drvWriteByte c g v (eraseIrq s) = ((drvWriteByte c g v s).1, eraseIrq (drvWriteByte c g v s).2) :=
  Prod.ext rfl (busWrite_eraseIrq s _ _)

@[simp] theorem drvWriteWord_eraseIrq (c : Chip) (g : Byte) (v : Half) :
    drvWriteWord c g v (eraseIrq s) = ((drvWriteWord c g v s).1, eraseIrq (drvWriteWord c g v s).2) :=
  Prod.ext rfl (busWrite_eraseIrq s _ _)

@[simp] theorem drvReadByte_eraseIrq (c : Chip) (g : Byte) :
    drvReadByte c g (eraseIrq s) = ((drvReadByte c g s).1, eraseIrq (drvReadByte c g s).2) := by
  by_cases h : s.env.nextStatus = 0#8
  · rw [drvReadByte_of_ok c g s h, drvReadByte_of_ok c g (eraseIrq s) h]
    simp only [eraseIrq_env, Env.dropStatus_edges_with, Env.nextRead_edges, eraseIrq_cfg, busWrite_eraseIrq,
      busRead_eraseIrq]
  · rw [drvReadByte_of_failed c g s h, drvReadByte_of_failed c g (eraseIrq s) h]; simp

@[simp] theorem drvReadWord_eraseIrq (c : Chip) (g : Byte) :
    drvReadWord c g (eraseIrq s) = ((drvReadWord c g s).1, eraseIrq (drvReadWord c g s).2) := by
  by_cases h : s.env.nextStatus = 0#8
  · rw [drvReadWord_of_ok c g s h, drvReadWord_of_ok c g (eraseIrq s) h]
    simp only [eraseIrq_env, Env.dropStatus_edges_with, Env.nextRead_edges, eraseIrq_cfg, busWrite_eraseIrq,
      busRead_eraseIrq]
  · rw [drvReadWord_of_failed c g s h, drvReadWord_of_failed c g (eraseIrq s) h]; simp

end Ops

/-! ### Report assembler and dispatchers -/

section Dispatch

variable (s : State)

@[simp] theorem addKey_eraseIrq (k : Byte) : addKey k (eraseIrq s) = eraseIrq (addKey k s) := rfl

@[simp] theorem removeKey_eraseIrq (k : Byte) : removeKey k (eraseIrq s) = eraseIrq (removeKey k s) := rfl

@[simp] theorem transmit_eraseIrq : transmit (eraseIrq s) = ((transmit s).1, eraseIrq (transmit s).2) := by
  simp [transmit]

@[simp] theorem invokeAction_eraseIrq (a : Action) (pressed : Bool) :
    invokeAction a pressed (eraseIrq s) = eraseIrq (invokeAction a pressed s) := by
  cases a with
  | layerSwitch => rfl
  | other id => exact emit_eraseIrq s rfl

@[simp] theorem pressKey_eraseIrq (row col : Nat) : pressKey row col (eraseIrq s) = eraseIrq (pressKey row col s) := by
  by_cases hcode : s.cfg.keymapAt s.layer row col = 0#8 <;> simp [pressKey, hcode]

@[simp] theorem releaseOnLayer_eraseIrq (row col l : Nat) :
    releaseOnLayer row col (eraseIrq s) l = eraseIrq (releaseOnLayer row col s l) := by
  by_cases hcode : s.cfg.keymapAt l row col = 0#8 <;> simp [releaseOnLayer, hcode]

@[simp] theorem releaseKey_eraseIrq (row col : Nat) :
    releaseKey row col (eraseIrq s) = eraseIrq (releaseKey row col s) :=
  List.foldl_hom eraseIrq fun t l => releaseOnLayer_eraseIrq t row col l

@[simp] theorem dispatchEvent_eraseIrq (row col : Nat) (pressed : Bool) :
    dispatchEvent row col pressed (eraseIrq s) = eraseIrq (dispatchEvent row col pressed s) := by
  unfold dispatchEvent
  rw [eraseIrq_cfg]
  cases s.cfg.fkFind row col with
  | some e => simp
  | none => cases pressed <;> simp

@[simp] theorem emitAndDispatch_eraseIrq (e : KeyEvent) :
    emitAndDispatch (eraseIrq s) e = eraseIrq (emitAndDispatch s e) := by
  rw [emitAndDispatch, emit_eraseIrq s rfl, dispatchEvent_eraseIrq]; rfl

theorem dispatchEvents_eraseIrq (l : List KeyEvent) :
    l.foldl emitAndDispatch (eraseIrq s) = eraseIrq (l.foldl emitAndDispatch s) :=
  List.foldl_hom eraseIrq emitAndDispatch_eraseIrq

@[simp] theorem diffBody_eraseIrq : diffBody (eraseIrq s) = eraseIrq (diffBody s) := by
  simp [diffBody, dispatchEvents_eraseIrq]

@[simp] theorem filterBody_eraseIrq : filterBody (eraseIrq s) = eraseIrq (filterBody s) := rfl

end Dispatch

/-! ### Scanner and initialization -/

section Scanner

variable (s : State)

@[simp] theorem storeRaw_eraseIrq (i : Nat) (v : Byte) : storeRaw i v (eraseIrq s) = eraseIrq (storeRaw i v s) := rfl

@[simp] theorem scanAt_eraseIrq (st : ScanState) (c : Chip) (i : Nat) :
    scanAt st c i (eraseIrq s) = eraseIrq (scanAt st c i s) := rfl

@[simp] theorem selectWrite_eraseIrq (c : Chip) (i : Nat) :
    selectWrite c i (eraseIrq s) = ((selectWrite c i s).1, eraseIrq (selectWrite c i s).2) := by
  simp [selectWrite]

@[simp] theorem sampleStore_eraseIrq (c : Chip) (i : Nat) :
    sampleStore c i (eraseIrq s) = eraseIrq (sampleStore c i s) := by
  simp [sampleStore]

@[simp] theorem parkWrite_eraseIrq (c : Chip) : parkWrite c (eraseIrq s) = eraseIrq (parkWrite c s) := by
  simp [parkWrite]

@[simp] theorem scanColumn_eraseIrq (c : Chip) (i : Nat) :
    scanColumn c (eraseIrq s) i = eraseIrq (scanColumn c s i) := by
  simp [scanColumn, ite_eraseIrq]

theorem scanColumns_eraseIrq (c : Chip) (l : List Nat) :
    l.foldl (scanColumn c) (eraseIrq s) = eraseIrq (l.foldl (scanColumn c) s) :=
  List.foldl_hom eraseIrq fun t i => scanColumn_eraseIrq t c i

@[simp] theorem scanChip_eraseIrq (c : Chip) : scanChip c (eraseIrq s) = eraseIrq (scanChip c s) := by
  simp [scanChip, scanColumns_eraseIrq, ite_eraseIrq]

@[simp] theorem beginScan_eraseIrq : beginScan (eraseIrq s) = eraseIrq (beginScan s) := by
  simp [beginScan]

@[simp] theorem endScan_eraseIrq : endScan (eraseIrq s) = eraseIrq (endScan s) := by
  simp only [endScan, eraseIrq_dev, setIrqEn_eraseIrq]
  rfl

@[simp] theorem scanBody_eraseIrq : scanBody (eraseIrq s) = eraseIrq (scanBody s) := by
  simp [scanBody]

@[simp] theorem configure_eraseIrq (c : Chip) (l : List (Byte × Byte)) :
    configure c l (eraseIrq s) = ((configure c l s).1, eraseIrq (configure c l s).2) := by
  induction l generalizing s with
  | nil => rfl
  | cons w l ih =>
    simp only [configure, drvWriteByte_eraseIrq]
    split
    · exact ih _
    · rfl

@[simp] theorem initChip_eraseIrq (c : Chip) : initChip c (eraseIrq s) = eraseIrq (initChip c s) := by
  simp only [initChip, eraseIrq_cfg, configure_eraseIrq, drvWriteByte_eraseIrq]
  split <;> rfl

@[simp] theorem initBody_eraseIrq : initBody (eraseIrq s) = eraseIrq (initBody s) := by
  simp [initBody]

end Scanner

/-! ### Pipeline -/

section Pipeline

variable (s : State)

@[simp] theorem setPhase_eraseIrq (ph : PipePhase) : setPhase ph (eraseIrq s) = eraseIrq (setPhase ph s) := rfl

@[simp] theorem setPassCount_eraseIrq (n : Nat) : setPassCount n (eraseIrq s) = eraseIrq (setPassCount n s) := rfl

@[simp] theorem passBody_eraseIrq : passBody (eraseIrq s) = eraseIrq (passBody s) := by
  simp [passBody]

@[simp] theorem requeuePass_eraseIrq : requeuePass (eraseIrq s) = eraseIrq (requeuePass s) := by
  simp [requeuePass]

@[simp] theorem requeueLoop_eraseIrq (n : Nat) : requeueLoop n (eraseIrq s) = eraseIrq (requeueLoop n s) := by
  induction n generalizing s with
  | zero => rfl
  | succ n ih => simp [requeueLoop, ih, ite_eraseIrq]

@[simp] theorem cyclePasses_eraseIrq : cyclePasses (eraseIrq s) = eraseIrq (cyclePasses s) := by
  simp [cyclePasses]

@[simp] theorem sendStep_eraseIrq : sendStep (eraseIrq s) = ((sendStep s).1, eraseIrq (sendStep s).2) := by
  simp only [sendStep, eraseIrq_report, transmit_eraseIrq]
  split <;> rfl

end Pipeline

end Sys2Proof.Machine
end

section
/-! PROOFS. R94: where interrupt edges fall reaches only WAKE and the interrupt entries of the trace. -/

namespace Sys2Proof.Machine

/-- The commuting diagram of R94: a command run from the erased state, where no edge falls, ends in the erasure of where
it ends when edges fall. -/
theorem exec_eraseIrq (i : Instr) (s : State) :
    ∃ t, exec i s = .next t ∧ exec i (eraseIrq s) = .next (eraseIrq t) := by
  cases i with
  | filter | addKey | removeKey | isAny | serialize => exact ⟨_, rfl, rfl⟩
  | init => exact ⟨_, rfl, by simp [exec, execInit]⟩
  | cycle => exact ⟨_, rfl, by simp [exec, execCycle]⟩
  | scan => exact ⟨_, rfl, by simp [exec, execScan]⟩
  | diff => exact ⟨_, rfl, by simp [exec, execDiff]⟩
  | dispatch => exact ⟨_, rfl, by simp [exec, execDispatch, ite_eraseIrq]⟩
  | transmit => exact ⟨_, rfl, by simp [exec, execTransmit, ite_eraseIrq]⟩
  | writeByte => exact ⟨_, rfl, by simp [exec, execWriteByte, ite_eraseIrq]⟩
  | writeWord => exact ⟨_, rfl, by simp [exec, execWriteWord, ite_eraseIrq]⟩
  | readByte => exact ⟨_, rfl, by simp [exec, execReadByte, ite_eraseIrq]⟩
  | readWord => exact ⟨_, rfl, by simp [exec, execReadWord, ite_eraseIrq]⟩
  | rawset col val =>
    refine ⟨_, rfl, ?_⟩
    by_cases hwf : col.toNat < s.cfg.cols ∧ val &&& ~~~ s.cfg.rowMask = 0#8 <;> simp [exec, execRawset, hwf]

/-- Settles O14: the run without edges ends in the erasure of the run with them, and erasing twice is erasing once. -/
theorem edgesReachOnlyWakeAndTrace : Obligations.EdgesReachOnlyWakeAndTrace := by
  intro i s
  obtain ⟨t, hexec, herased⟩ := exec_eraseIrq i s
  exact ⟨t, eraseIrq t, hexec, herased, (eraseIrq_eraseIrq t).symm⟩

end Sys2Proof.Machine
end
section
/-! SUPPORT. What the edges at the first interleaving point of a command do, exactly (R266), and what holds from then
on: with the interrupt masked no later edge is taken, and with no later edge scheduled WAKE stays. -/

namespace Sys2Proof.Machine

open Sys2Proof.Claims

/-! ### The edges at one interleaving point -/

theorem setTrace_setWake (s : State) (l : List Event) (w : Word) :
    (s.setTrace l).setWake w = (s.setWake w).setTrace l := rfl

/-- `n` edges in a row are all taken or all dropped, by IRQ_EN (R266, R290). -/
theorem irqEdges_eq (n : Nat) (s : State) :
    irqEdges n s = (s.setWake (wakeAfter s n)).setTrace (s.trace ++ edgeEvents s n) := by
  induction n generalizing s with
  | zero => simp [irqEdges, wakeAfter, edgeEvents]
  | succ n ih =>
    rw [irqEdges, ih]
    obtain ⟨hen, hedge⟩ | ⟨hen, hedge⟩ := irqEdge_spec s <;>
      simp [hedge, hen, wakeAfter, edgeEvents, List.replicate_succ, setTrace_setWake]

/-- An interleaving point where `n` edges fall. -/
theorem interleave_of_edges {s : State} {n : Nat} {rest : List Nat} (h : s.env.edges = n :: rest) :
    (interleave s).wake = wakeAfter s n ∧ (interleave s).trace = s.trace ++ edgeEvents s n := by
  unfold interleave
  rw [h]
  dsimp only
  exact irqEdges_eq n _ ▸ ⟨rfl, rfl⟩

/-- A command whose one place for edges stands before its one event: `t` is where it ends. -/
structure OneEvent (s t : State) (n : Nat) (rest : List Nat) (e : Event) : Prop where
  wake : t.wake = wakeAfter s n
  edges : t.env.edges = rest
  trace : t.trace = s.trace ++ edgeEvents s n ++ [e]

/-- The event of a call that has taken its answer from the environment. -/
theorem OneEvent.emit {s : State} {n : Nat} {rest : List Nat} (h : s.env.edges = n :: rest) (e : Event) {v : Env}
    (hv : v.edges = s.env.edges) : OneEvent s (emit e (s.setEnv v)) n rest e := by
  obtain ⟨hwake, htrace⟩ := interleave_of_edges (s := s.setEnv v) (hv.trans h)
  exact ⟨hwake, by simp [interleave_env, hv, h], by rw [emit_trace, htrace]; rfl⟩

theorem transmit_oneEvent {s : State} {n : Nat} {rest : List Nat} (h : s.env.edges = n :: rest) :
    OneEvent s (transmit s).2 n rest (.send (reportBytes s.cfg s.report) s.env.nextAccepted) :=
  let ⟨hwake, hedges, htrace⟩ := OneEvent.emit h _ s.env.dropAccepted_edges
  ⟨hwake, hedges, htrace⟩

theorem drvWriteByte_oneEvent {s : State} {n : Nat} {rest : List Nat} (h : s.env.edges = n :: rest) (c : Chip)
    (g v : Byte) :
    OneEvent s (drvWriteByte c g v s).2 n rest (.busW (s.cfg.chipAddr c) [g, v] s.env.nextStatus) :=
  .emit h _ s.env.dropStatus_edges

theorem drvWriteWord_oneEvent {s : State} {n : Nat} {rest : List Nat} (h : s.env.edges = n :: rest) (c : Chip)
    (g : Byte) (v : Half) :
    OneEvent s (drvWriteWord c g v s).2 n rest
      (.busW (s.cfg.chipAddr c) [g, v.extractLsb' 0 8, v.extractLsb' 8 8] s.env.nextStatus) :=
  .emit h _ s.env.dropStatus_edges

/-! ### With the interrupt masked, no edge is taken -/

/-- What follows a masked state: no edge is taken, and WAKE stays (R266). -/
theorem ActsSome.of_masked {s t : State} (h : ActsSome s t) (hmask : s.dev.irqEn = false) :
    t.wake = s.wake ∧ ∃ more, t.trace = s.trace ++ more ∧ ∀ e ∈ more, e ≠ .irq .taken := by
  obtain ⟨own, acts⟩ := h
  obtain ⟨more, htrace, -, -, hnone⟩ := acts.trace
  exact ⟨acts.wake_masked hmask, more, htrace, hnone hmask⟩

/-- The rest of a scan, once `IRQ_EN <- 0` is done. -/
theorem beginScan_actsSome_scanBody (s : State) : ActsSome (beginScan s) (scanBody s) :=
  ((scanChip_actsSome .chip0 (beginScan s)).trans (scanChip_actsSome .chip1 _) (by simp)).trans ⟨_, endScan_acts _⟩
    (by simp)

/-- The rest of an initialization, once `IRQ_EN <- 0` is done. -/
theorem setIrqEn_actsSome_initBody (s : State) : ActsSome (setIrqEn false s) (initBody s) := by
  have chips := (initChip_actsSome .chip0 (setIrqEn false s)).trans (initChip_actsSome .chip1 _) (by simp)
  exact (chips.trans (actsSome_setDev _ _) (by simp)).trans ⟨_, setIrqEn_acts true _⟩ (by simp)

/-- `s` after `n` edges at its first place, then a masked run: WAKE and the trace. -/
theorem wake_and_trace_of_masked {s t u : State} {n : Nat} {rest : List Nat} (h : s.env.edges = n :: rest)
    (hwake : t.wake = (interleave s).wake) (htrace : t.trace = (interleave s).trace) (hmask : t.dev.irqEn = false)
    (acts : ActsSome t u) :
    u.wake = wakeAfter s n ∧
      ∃ more, u.trace = s.trace ++ edgeEvents s n ++ more ∧ ∀ e ∈ more, e ≠ .irq .taken := by
  obtain ⟨hwake', more, htrace', hnone⟩ := acts.of_masked hmask
  obtain ⟨hfirst, hevents⟩ := interleave_of_edges h
  exact ⟨by rw [hwake', hwake, hfirst], more, by rw [htrace', htrace, hevents], hnone⟩

/-! ### With no edge scheduled, WAKE stays -/

/-- From a state with no edge scheduled, `t` has none either, the same WAKE, and a trace that only grew. -/
structure Quiet (s t : State) : Prop where
  edges : s.env.edges = [] → t.env.edges = []
  wake : s.env.edges = [] → t.wake = s.wake
  trace : s.trace <+: t.trace

namespace Quiet

theorem refl (s : State) : Quiet s s := ⟨id, fun _ => rfl, List.prefix_refl _⟩

theorem trans {s t u : State} (h : Quiet s t) (g : Quiet t u) : Quiet s u where
  edges hs := g.edges (h.edges hs)
  wake hs := (g.wake (h.edges hs)).trans (h.wake hs)
  trace := h.trace.trans g.trace

theorem of_actsSome {s t : State} (h : ActsSome s t) : Quiet s t := by
  obtain ⟨own, acts⟩ := h
  obtain ⟨more, htrace, -⟩ := acts.trace
  exact ⟨acts.edges, acts.wake_quiet, more, htrace.symm⟩

/-- A register update that touches neither the trace, WAKE nor the environment. -/
theorem of_eq {s t : State} (htrace : t.trace = s.trace) (hwake : t.wake = s.wake) (henv : t.env = s.env) : Quiet s t :=
  ⟨fun hs => by rw [henv, hs], fun _ => hwake, htrace ▸ List.prefix_refl _⟩

/-- The rest of a pass after its scan (R263). -/
theorem scanBody_passBody (s : State) : Quiet (scanBody s) (passBody s) :=
  (of_eq rfl rfl rfl : Quiet (scanBody s) (filterBody (scanBody s))).trans (of_actsSome (diffBody_actsSome _))

theorem requeuePass (s : State) : Quiet s (requeuePass s) := by
  have wait : Quiet s (setPassCount ((waitFor .debounce s).seq.passCount + 1) (waitFor .debounce s)) :=
    (of_actsSome ⟨_, waitFor_acts .debounce s⟩).trans (of_eq rfl rfl rfl)
  exact wait.trans ((of_actsSome (scanBody_actsSome _)).trans (scanBody_passBody _))

theorem requeueLoop (n : Nat) (s : State) : Quiet s (requeueLoop n s) := by
  induction n generalizing s with
  | zero => exact refl s
  | succ n ih =>
    unfold Machine.requeueLoop
    split
    · exact (requeuePass s).trans (ih _)
    · exact refl s

theorem sendStep (s : State) : Quiet s (sendStep s).2 := by
  unfold Machine.sendStep
  split
  · exact of_actsSome (transmit_actsSome s)
  · exact refl s

end Quiet

/-- CYCLE up to and with its send step (R261, R265). -/
def cycleSent (s : State) : State :=
  (sendStep (setPhase .send (cyclePasses s))).2

theorem cycleBody_eq (s : State) :
    cycleBody s = setPhase .idle (waitFor .debounce (wakeDecrement (setPhase .finish (cycleSent s)))) := rfl

/-- A CYCLE from its first `IRQ_EN <- 0` to its send step. -/
theorem beginScan_quiet_cycleSent (s : State) :
    Quiet (beginScan (setPassCount 0 (setPhase .pass s))) (cycleSent s) := by
  have pass := (Quiet.of_actsSome (beginScan_actsSome_scanBody (setPassCount 0 (setPhase .pass s)))).trans
    (.scanBody_passBody _)
  have passes : Quiet _ (setPhase .send (cyclePasses s)) :=
    (pass.trans (.requeueLoop s.cfg.requeuePasses _)).trans (.of_eq rfl rfl rfl)
  exact passes.trans (.sendStep _)

/-- With no edge scheduled, the decrement is all that happens (R264). -/
theorem wakeDecrement_of_no_edges {s : State} (h : s.env.edges = []) :
    wakeDecrement s = s.setWake (if s.wake = 0#32 then 0#32 else s.wake - 1#32) := by
  simp [wakeDecrement, h]

/-- How CYCLE ends when no edge is left: the wake decrement, then a wait (R264). -/
theorem cycleBody_of_no_edges {s : State} (h : (cycleSent s).env.edges = []) :
    (cycleBody s).wake = (if (cycleSent s).wake = 0#32 then 0#32 else (cycleSent s).wake - 1#32) ∧
      (cycleBody s).trace = (cycleSent s).trace ++ [.wait .debounce] := by
  have hdec := wakeDecrement_of_no_edges (s := setPhase .finish (cycleSent s)) h
  have hwait := emit_of_no_edges (.wait .debounce) (wakeDecrement (setPhase .finish (cycleSent s))) (by rwa [hdec])
  rw [cycleBody_eq, waitFor, hwait, hdec]
  exact ⟨rfl, rfl⟩

end Sys2Proof.Machine
end

section
/-! PROOFS. R94, R266: what becomes of the edges at the first place inside a command. -/

namespace Sys2Proof.Machine

open Sys2Proof.Claims

/-- Every command ends in its body's state, with STATUS and RESULT written. -/
theorem exec_eq_execBody (i : Instr) (s : State) : ∃ v, exec i s = .next ((execBody i s).setPort v) :=
  let ⟨v, _, hexec⟩ := exec_endsWith_execBody i s
  ⟨v, hexec⟩

/-- A command whose body has one event runs as that body does. -/
theorem exec_of_oneEvent {i : Instr} {s : State} {n : Nat} {rest : List Nat} {e : Event}
    (h : OneEvent s (execBody i s) n rest e) :
    ∃ t, exec i s = .next t ∧ t.wake = wakeAfter s n ∧ t.env.edges = rest ∧
      t.trace = s.trace ++ edgeEvents s n ++ [e] :=
  let ⟨v, hexec⟩ := exec_eq_execBody i s
  ⟨(execBody i s).setPort v, hexec, h.wake, h.edges, h.trace⟩

/-- SCAN and INIT: the edges before `IRQ_EN <- 0` take effect, and no later one is taken. -/
theorem exec_scan_or_init_edges {s : State} {n : Nat} {rest : List Nat} (h : s.env.edges = n :: rest) {i : Instr}
    (hi : i = .scan ∨ i = .init) :
    ∃ t more, exec i s = .next t ∧ t.wake = wakeAfter s n ∧ t.trace = s.trace ++ edgeEvents s n ++ more ∧
      ∀ e ∈ more, e ≠ .irq .taken := by
  have hbody : (execBody i s).wake = wakeAfter s n ∧
      ∃ more, (execBody i s).trace = s.trace ++ edgeEvents s n ++ more ∧ ∀ e ∈ more, e ≠ .irq .taken := by
    obtain rfl | rfl := hi
    · exact wake_and_trace_of_masked (t := beginScan s) h rfl rfl (by simp) (beginScan_actsSome_scanBody s)
    · exact wake_and_trace_of_masked (t := setIrqEn false s) h rfl rfl (by simp) (setIrqEn_actsSome_initBody s)
  obtain ⟨hwake, more, htrace, hnone⟩ := hbody
  obtain ⟨v, hexec⟩ := exec_eq_execBody i s
  exact ⟨(execBody i s).setPort v, more, hexec, hwake, htrace, hnone⟩

/-- CYCLE with edges at its first place only: the wake decrement follows them (R264). -/
theorem exec_cycle_edges {s : State} {n : Nat} (h : s.env.edges = [n]) :
    ∃ t more, exec .cycle s = .next t ∧ t.trace = s.trace ++ edgeEvents s n ++ more ∧
      t.wake = (if wakeAfter s n = 0#32 then 0#32 else wakeAfter s n - 1#32) := by
  obtain ⟨hfirst, hevents⟩ := interleave_of_edges (s := setPassCount 0 (setPhase .pass s)) h
  have hnoedge : (beginScan (setPassCount 0 (setPhase .pass s))).env.edges = [] := by
    simp [beginScan, interleave_env, setPassCount, setPhase, h]
  obtain ⟨hedges, hwake, more, htrace⟩ := beginScan_quiet_cycleSent s
  obtain ⟨hdec, hend⟩ := cycleBody_of_no_edges (hedges hnoedge)
  have hsent : (cycleSent s).wake = wakeAfter s n := (hwake hnoedge).trans hfirst
  have hbefore : (cycleSent s).trace = s.trace ++ edgeEvents s n ++ more := by
    rw [← htrace]; exact congrArg (· ++ more) hevents
  obtain ⟨v, hexec⟩ := exec_eq_execBody .cycle s
  refine ⟨(cycleBody s).setPort v, more ++ [.wait .debounce], hexec, ?_, ?_⟩
  · rw [State.setPort_trace, hend, hbefore, List.append_assoc]
  · rw [State.setPort_wake, hdec, hsent]

/-- Settles O59, command by command: TRANSMIT and the driver writes have one event, SCAN and INIT mask the interrupt
first, and CYCLE begins with a scan. -/
theorem edgeInsideACommandTakesEffect : Obligations.EdgeInsideACommandTakesEffect := by
  intro s n rest h
  refine ⟨exec_of_oneEvent (transmit_oneEvent h),
    fun ch reg val => exec_of_oneEvent (drvWriteByte_oneEvent h ch reg val),
    fun ch reg val => exec_of_oneEvent (drvWriteWord_oneEvent h ch reg val),
    fun _ hi => exec_scan_or_init_edges h hi, ?_⟩
  rintro rfl
  exact exec_cycle_edges h

end Sys2Proof.Machine
end

section
/-! SUPPORT. Bit fields: a command word is its operands placed side by side (R101 to R108), what a field reads back,
and every row of R110 as its pattern with the operand bits of the word. -/

namespace Sys2Proof

open Claims Laws Machine

/-! ### A field placed in a word -/

/-- A value in the word's field whose low bit is `lo`, every other bit 0 (R114: `v << lo`). -/
def place {n : Nat} (v : BitVec n) (lo : Nat) : Word :=
  v.zeroExtend 32 <<< lo

theorem getLsbD_place {n : Nat} (v : BitVec n) (lo i : Nat) :
    (place v lo).getLsbD i = (decide (i < 32) && decide (lo ≤ i) && v.getLsbD (i - lo)) := by
  by_cases hi : i < 32 <;> by_cases hlo : lo ≤ i <;> simp [place, hi, hlo]

/-- A field reads back what was placed in it. -/
@[simp] theorem extractLsb'_place_same {n lo : Nat} (v : BitVec n) (h : lo + n ≤ 32) :
    (place v lo).extractLsb' lo n = v := by
  ext i hi
  have hword : lo + i < 32 := by omega
  simp [← BitVec.getLsbD_eq_getElem, getLsbD_place, hi, hword]

/-- A field reads 0 of what was placed in another one. -/
@[simp] theorem extractLsb'_place_disjoint {n m lo lo' : Nat} (v : BitVec n) (h : lo' + m ≤ lo ∨ lo + n ≤ lo') :
    (place v lo).extractLsb' lo' m = 0#m := by
  ext i hi
  have hout : lo ≤ lo' + i → v.getLsbD (lo' + i - lo) = false := fun hlo =>
    BitVec.getLsbD_of_ge v _ (by omega)
  simpa [← BitVec.getLsbD_eq_getElem, getLsbD_place, hi] using fun _ => hout

/-- A field taken out and placed again is the word's bits under the field's mask. -/
theorem place_extractLsb' (w : Word) (lo n : Nat) :
    place (w.extractLsb' lo n) lo = w &&& place (BitVec.allOnes n) lo := by
  ext i hi
  rw [← BitVec.getLsbD_eq_getElem, ← BitVec.getLsbD_eq_getElem, BitVec.getLsbD_and, getLsbD_place, getLsbD_place]
  by_cases hlo : lo ≤ i <;> simp [hi, hlo, BitVec.getLsbD_allOnes, Bool.and_comm]

/-! ### The word of a command, field by field (R114) -/

theorem encode_dispatch (b : Bool) (r : BitVec 3) (c : BitVec 4) :
    encode (.dispatch b r c) = place 0x06#6 26 ||| place (BitVec.ofBool b) 8 ||| place r 4 ||| place c 0 := by
  simp [encode, opBits, place]

theorem encode_addKey (kc : Byte) : encode (.addKey kc) = place 0x07#6 26 ||| place kc 0 := by
  simp [encode, opBits, place]

theorem encode_removeKey (kc : Byte) : encode (.removeKey kc) = place 0x08#6 26 ||| place kc 0 := by
  simp [encode, opBits, place]

theorem encode_writeByte (ch : Chip) (g v : Byte) :
    encode (.writeByte ch g v) =
      place 0x0C#6 26 ||| (place (bitOfChip ch) 24 ||| place g 16) ||| place v 0 := by
  simp [encode, opBits, busBits, place]

theorem encode_writeWord (ch : Chip) (g : Byte) (v : Half) :
    encode (.writeWord ch g v) =
      place 0x0D#6 26 ||| (place (bitOfChip ch) 24 ||| place g 16) ||| place v 0 := by
  simp [encode, opBits, busBits, place]

theorem encode_readByte (ch : Chip) (g : Byte) :
    encode (.readByte ch g) = place 0x0E#6 26 ||| (place (bitOfChip ch) 24 ||| place g 16) := by
  simp [encode, opBits, busBits, place]

theorem encode_readWord (ch : Chip) (g : Byte) :
    encode (.readWord ch g) = place 0x0F#6 26 ||| (place (bitOfChip ch) 24 ||| place g 16) := by
  simp [encode, opBits, busBits, place]

theorem encode_rawset (c : BitVec 4) (v : Byte) :
    encode (.rawset c v) = place 0x10#6 26 ||| place c 8 ||| place v 0 := by
  simp [encode, opBits, place]

/-! ### The one-bit fields -/

@[simp] theorem chipOfBit_bitOfChip (ch : Chip) : chipOfBit (bitOfChip ch) = ch := by
  cases ch <;> rfl

@[simp] theorem bitOfChip_chipOfBit (b : BitVec 1) : bitOfChip (chipOfBit b) = b := by
  revert b; decide

@[simp] theorem ofBool_beq_one (b : Bool) : (BitVec.ofBool b == 1#1) = b := by
  cases b <;> rfl

@[simp] theorem ofBool_bit (b : BitVec 1) : BitVec.ofBool (b == 1#1) = b := by
  revert b; decide

/-! ### The rows of the opcode map -/

/-- A command's word carries its opcode, whatever its operands. -/
theorem opField_encode : ∀ i : Instr, opField (encode i) = opcodeOf i
  | .init => EncodesUnderItsOpcode.init
  | .cycle => EncodesUnderItsOpcode.cycle
  | .scan => EncodesUnderItsOpcode.scan
  | .filter => EncodesUnderItsOpcode.filter
  | .diff => EncodesUnderItsOpcode.diff
  | .dispatch b r c => EncodesUnderItsOpcode.dispatch b r c
  | .addKey kc => EncodesUnderItsOpcode.addKey kc
  | .removeKey kc => EncodesUnderItsOpcode.removeKey kc
  | .isAny => EncodesUnderItsOpcode.isAny
  | .serialize => EncodesUnderItsOpcode.serialize
  | .transmit => EncodesUnderItsOpcode.transmit
  | .writeByte ch g v => EncodesUnderItsOpcode.writeByte ch g v
  | .writeWord ch g v => EncodesUnderItsOpcode.writeWord ch g v
  | .readByte ch g => EncodesUnderItsOpcode.readByte ch g
  | .readWord ch g => EncodesUnderItsOpcode.readWord ch g
  | .rawset c v => EncodesUnderItsOpcode.rawset c v

/-- The row of a command's opcode builds the command again from the fields of its word. -/
theorem opRow_opcodeOf (i : Instr) :
    ∃ r, opRow (opcodeOf i).toNat = some r ∧ r.build (encode i) = i := by
  cases i with
  | init | cycle | scan | filter | diff | isAny | serialize | transmit => exact ⟨_, rfl, rfl⟩
  | dispatch b r c =>
    exact ⟨_, rfl, by simp [encode_dispatch, fieldP, fieldRow, fieldColE, BitVec.extractLsb'_or]⟩
  | addKey kc => exact ⟨_, rfl, by simp [encode_addKey, fieldKc, BitVec.extractLsb'_or]⟩
  | removeKey kc => exact ⟨_, rfl, by simp [encode_removeKey, fieldKc, BitVec.extractLsb'_or]⟩
  | writeByte ch g v =>
    exact ⟨_, rfl, by simp [encode_writeByte, fieldChip, fieldReg, fieldByte, BitVec.extractLsb'_or]⟩
  | writeWord ch g v =>
    exact ⟨_, rfl, by simp [encode_writeWord, fieldChip, fieldReg, fieldHalf, BitVec.extractLsb'_or]⟩
  | readByte ch g => exact ⟨_, rfl, by simp [encode_readByte, fieldChip, fieldReg, BitVec.extractLsb'_or]⟩
  | readWord ch g => exact ⟨_, rfl, by simp [encode_readWord, fieldChip, fieldReg, BitVec.extractLsb'_or]⟩
  | rawset c v => exact ⟨_, rfl, by simp [encode_rawset, fieldColC, fieldByte, BitVec.extractLsb'_or]⟩

/-- A row's (match, mask) pair stands in the table of R110. -/
theorem mem_opTable_of_opRow {n : Nat} {r : OpRow} (h : opRow n = some r) : (r.pattern, r.mask) ∈ opTable := by
  unfold opRow at h
  split at h <;> cases h <;> simp [opTable]

/-- The command a row builds of any word has, as its word, the row's pattern with the word's operand bits: each operand
is the word under its field's mask, and these masks make up the complement of the row's. (Case `h_n`
is the row of opcode `n`.) -/
theorem encode_build {n : Nat} {r : OpRow} (h : opRow n = some r) (w : Word) :
    encode (r.build w) = r.pattern ||| (w &&& ~~~ r.mask) := by
  unfold opRow at h
  split at h <;> cases h
  case h_6 =>
    simp only [encode_dispatch, fieldP, fieldRow, fieldColE, ofBool_bit, place_extractLsb', BitVec.or_assoc,
      ← BitVec.and_or_distrib_left]
    rfl
  case h_7 =>
    rw [encode_addKey, fieldKc, place_extractLsb']
    rfl
  case h_8 =>
    rw [encode_removeKey, fieldKc, place_extractLsb']
    rfl
  case h_12 =>
    simp only [encode_writeByte, fieldChip, fieldReg, fieldByte, bitOfChip_chipOfBit, place_extractLsb',
      BitVec.or_assoc, ← BitVec.and_or_distrib_left]
    rfl
  case h_13 =>
    simp only [encode_writeWord, fieldChip, fieldReg, fieldHalf, bitOfChip_chipOfBit, place_extractLsb',
      BitVec.or_assoc, ← BitVec.and_or_distrib_left]
    rfl
  case h_14 =>
    simp only [encode_readByte, fieldChip, fieldReg, bitOfChip_chipOfBit, place_extractLsb',
      ← BitVec.and_or_distrib_left]
    rfl
  case h_15 =>
    simp only [encode_readWord, fieldChip, fieldReg, bitOfChip_chipOfBit, place_extractLsb',
      ← BitVec.and_or_distrib_left]
    rfl
  case h_16 =>
    simp only [encode_rawset, fieldColC, fieldByte, place_extractLsb', BitVec.or_assoc,
      ← BitVec.and_or_distrib_left]
    rfl
  all_goals (simp; rfl)

/-- Every row of R110 fixes the whole opcode field, and its match has no bit outside its mask. -/
theorem opTable_masks : ∀ r ∈ opTable, opField r.2 = BitVec.allOnes 6 ∧ r.1 &&& r.2 = r.1 := by
  simp [opTable, opField]

/-- The opcode of a matching word is that of the row's match (R110). -/
theorem opField_of_matchesRow {w : Word} {r : Word × Word} (hr : r ∈ opTable) (h : matchesRow w r = true) :
    opField w = opField r.1 := by
  obtain ⟨hmask, -⟩ := opTable_masks r hr
  have hw : w &&& r.2 = r.1 := by simpa [matchesRow] using h
  calc opField w = opField w &&& opField r.2 := by rw [hmask, BitVec.and_allOnes]
    _ = opField (w &&& r.2) := BitVec.extractLsb'_and.symm
    _ = opField r.1 := by rw [hw]

/-- A word matches a row of the opcode map exactly when it is the word of the command the row builds of it. -/
theorem matches_iff_encode_build {n : Nat} {r : OpRow} (h : opRow n = some r) (w : Word) :
    w &&& r.mask = r.pattern ↔ encode (r.build w) = w := by
  obtain ⟨-, hpattern⟩ := opTable_masks _ (mem_opTable_of_opRow h)
  rw [encode_build h]
  constructor
  · intro hw
    rw [← hw, ← BitVec.and_or_distrib_left, BitVec.or_not_self, BitVec.and_allOnes]
  · intro hw
    rw [← hw, BitVec.and_or_distrib_right, BitVec.and_assoc, BitVec.not_and_self, hpattern]
    simp

/-! ### The decoder -/

/-- R115: what the decoder makes of a command's word: the command, unless an operand is out of range (R106). -/
theorem decode_encode (p : Params) (i : Instr) :
    decode p (encode i) = if i.wf p then .ok i else .error .operandRange := by
  obtain ⟨r, hrow, hbuild⟩ := opRow_opcodeOf i
  have hmatch : encode i &&& r.mask = r.pattern := (matches_iff_encode_build hrow _).mpr (by rw [hbuild])
  simp [decode, opField_encode, hrow, hmatch, hbuild]

/-- A legal word matches the row of its opcode, which builds of it the command it decodes to, in range. -/
theorem row_of_decode {p : Params} {w : Word} {i : Instr} (h : decode p w = .ok i) :
    ∃ r, opRow (opField w).toNat = some r ∧ w &&& r.mask = r.pattern ∧ r.build w = i ∧ i.wf p = true := by
  unfold decode at h
  split at h
  next => cases h
  next r hrow =>
    split at h
    next hmatch =>
      split at h
      next hwf =>
        cases h
        exact ⟨r, hrow, hmatch, rfl, hwf⟩
      next => cases h
    next => cases h

/-- A legal word matches a row of the table of R110. -/
theorem matchesRow_of_decode {p : Params} {w : Word} {i : Instr} (h : decode p w = .ok i) :
    ∃ r ∈ opTable, matchesRow w r = true := by
  obtain ⟨r, hrow, hmatch, -, -⟩ := row_of_decode h
  exact ⟨(r.pattern, r.mask), mem_opTable_of_opRow hrow, by simpa [matchesRow] using hmatch⟩

/-- R106: the word of a command is illegal exactly when the command is out of range. -/
theorem illegal_encode_iff (p : Params) (i : Instr) : Illegal p (encode i) ↔ i.wf p = false := by
  cases hwf : i.wf p <;> simp [Illegal, decode_encode, hwf]

/-! ### The command port (R100, R116) -/

theorem step_of_command {s : State} {w : Word} {rest : List Input} (h : s.env.inputs = .command w :: rest) :
    step s = runWord w (withInputs s rest) := by
  simp [step, dropInput, withInputs, h]

theorem runWord_of_illegal {s : State} {w : Word} (h : Illegal s.cfg w) :
    runWord w s = .next (s.setPort ⟨0x01#8, []⟩) := by
  unfold runWord
  split
  next i hi => exact absurd hi (h i)
  next => rfl

theorem runWord_of_decode {s : State} {w : Word} {i : Instr} (h : decode s.cfg w = .ok i) : runWord w s = exec i s := by
  simp [runWord, h]

end Sys2Proof
end

section
/-! PROOFS. The encoding (spec/30_encoding.md): decode and encode are inverse, one row matches, and what is illegal. -/

namespace Sys2Proof

open Claims Laws Machine

/-- Settles O1: the decoder refuses the word of a command for its range alone. -/
theorem decodeInvertsEncode : Obligations.DecodeInvertsEncode := by
  intro p i hwf
  rw [decode_encode, if_pos hwf]

/-- Settles O2: a matching word is the word of what its row builds. -/
theorem encodeInvertsDecode : Obligations.EncodeInvertsDecode := by
  intro p w i h
  obtain ⟨r, hrow, hmatch, rfl, hwf⟩ := row_of_decode h
  exact ⟨hwf, (matches_iff_encode_build hrow w).mp hmatch⟩

/-- Settles O3, each word by evaluating the decoder. -/
theorem writtenWordsDecode : Obligations.WrittenWordsDecode :=
  ⟨rfl, rfl, rfl, rfl, rfl, rfl⟩

/-! ### One row matches (R110) -/

theorem opTable_opcodes_nodup : (opTable.map fun r => opField r.1).Nodup := by
  decide

/-- Matching rows all have the word's opcode, and no two rows share one. -/
theorem length_filter_matchesRow_le (w : Word) : (opTable.filter (matchesRow w)).length ≤ 1 := by
  have hnodup : ((opTable.filter (matchesRow w)).map fun r => opField r.1).Nodup :=
    opTable_opcodes_nodup.sublist (List.filter_sublist.map _)
  have hsame : (opTable.filter (matchesRow w)).map (fun r => opField r.1) =
      List.replicate (opTable.filter (matchesRow w)).length (opField w) := by
    rw [List.eq_replicate_iff]
    refine ⟨List.length_map _, fun o ho => ?_⟩
    obtain ⟨r, hr, rfl⟩ := List.mem_map.mp ho
    obtain ⟨hmem, hmatch⟩ := List.mem_filter.mp hr
    exact (opField_of_matchesRow hmem hmatch).symm
  rwa [hsame, List.nodup_replicate] at hnodup

/-- Settles O4: the rows' opcodes are distinct, and the decoder matches a word against a row of the table only. -/
theorem oneRowMatches : Obligations.OneRowMatches := fun _ w =>
  ⟨length_filter_matchesRow_le w, fun _ h => matchesRow_of_decode h⟩

/-! ### Illegal words (R111, R116) -/

/-- Every row of R110 has an opcode of 0x01 to 0x10, and bit 25 reserved. -/
theorem opTable_rows : ∀ r ∈ opTable, (opField r.1).toNat ≠ 0 ∧ (opField r.1).toNat < 0x11 ∧
    r.2.getLsbD 25 = true ∧ r.1.getLsbD 25 = false := by
  simp [opTable, opField]

/-- What the opcode and bit 25 of a legal word are. -/
theorem legal_bounds {p : Params} {w : Word} {i : Instr} (h : decode p w = .ok i) :
    (opField w).toNat ≠ 0 ∧ (opField w).toNat < 0x11 ∧ w.getLsbD 25 = false := by
  obtain ⟨r, hr, hmatch⟩ := matchesRow_of_decode h
  obtain ⟨hpos, hlt, hmask, hbit⟩ := opTable_rows r hr
  rw [opField_of_matchesRow hr hmatch]
  have hw : w &&& r.2 = r.1 := by simpa [matchesRow] using hmatch
  refine ⟨hpos, hlt, ?_⟩
  rw [← hw, BitVec.getLsbD_and, hmask, Bool.and_true] at hbit
  exact hbit

/-- Settles O5: the contrapositive of what a legal word is, and R116's one behaviour. -/
theorem wordsOutsideTheTableAreIllegal : Obligations.WordsOutsideTheTableAreIllegal := by
  intro p w
  refine ⟨fun hop i hi => ?_, fun hnone i hi => ?_, fun hbit i hi => ?_, ?_⟩
  · obtain ⟨hpos, hlt, -⟩ := legal_bounds hi
    omega
  · obtain ⟨r, hr, hmatch⟩ := matchesRow_of_decode hi
    simp [hnone r hr] at hmatch
  · obtain ⟨-, -, hclear⟩ := legal_bounds hi
    exact Bool.false_ne_true (hclear.symm.trans hbit)
  · rintro hill s rest rfl hin
    rw [step_of_command hin]
    exact runWord_of_illegal hill

/-- Settles O7: the presented word is taken, then run as the command it decodes to. -/
theorem stepRunsThePresentedCommand : Obligations.StepRunsThePresentedCommand := by
  intro s w rest i hin hdec
  rw [step_of_command hin]
  exact runWord_of_decode hdec

/-! ### The range checks (R106) -/

theorem wf_dispatch_eq_false_iff (p : Params) (b : Bool) (r : BitVec 3) (c : BitVec 4) :
    (Instr.dispatch b r c).wf p = false ↔ p.rows ≤ r.toNat ∨ p.cols ≤ c.toNat := by
  simp [Instr.wf, imp_iff_not_or]

theorem wf_rawset_eq_false_iff (p : Params) (c : BitVec 4) (v : Byte) :
    (Instr.rawset c v).wf p = false ↔ p.cols ≤ c.toNat ∨ v &&& ~~~ p.rowMask ≠ 0#8 := by
  simp [Instr.wf, imp_iff_not_or]

/-- Settles O6, by `illegal_encode_iff`: no command but DISPATCH and RAWSET has a range check. -/
theorem rangeChecksAtDecode : Obligations.RangeChecksAtDecode := by
  intro p
  have hdispatch (b : Bool) (r : BitVec 3) (c : BitVec 4) :
      Illegal p (encode (.dispatch b r c)) ↔ p.rows ≤ r.toNat ∨ p.cols ≤ c.toNat :=
    (illegal_encode_iff p _).trans (wf_dispatch_eq_false_iff p b r c)
  have hrawset (c : BitVec 4) (v : Byte) :
      Illegal p (encode (.rawset c v)) ↔ p.cols ≤ c.toNat ∨ v &&& ~~~ p.rowMask ≠ 0#8 :=
    (illegal_encode_iff p _).trans (wf_rawset_eq_false_iff p c v)
  refine ⟨hdispatch, hrawset, fun i hd hr => decodeInvertsEncode p i ?_,
    fun hcols => ⟨fun b r c => ?_, fun c v => ?_⟩⟩
  · cases i with
    | dispatch b r c => exact absurd rfl (hd b r c)
    | rawset c v => exact absurd rfl (hr c v)
    | _ => rfl
  · exact (hdispatch b r c).mpr (.inr (by omega))
  · exact (hrawset c v).mpr (.inl (by omega))

theorem exec_dispatch_of_out_of_range {s : State} {b : Bool} {r : BitVec 3} {c : BitVec 4}
    (h : ¬ (r.toNat < s.cfg.rows ∧ c.toNat < s.cfg.cols)) : exec (.dispatch b r c) s = .next (illegalCommand s) :=
  congrArg Host.Outcome.next (if_neg h)

theorem exec_rawset_of_out_of_range {s : State} {c : BitVec 4} {v : Byte}
    (h : ¬ (c.toNat < s.cfg.cols ∧ v &&& ~~~ s.cfg.rowMask = 0#8)) :
    exec (.rawset c v) s = .next (illegalCommand s) :=
  congrArg Host.Outcome.next (if_neg h)

/-- Settles O43: only DISPATCH and RAWSET can be out of range. -/
theorem outOfRangeOperandsOnlyReport : Obligations.OutOfRangeOperandsOnlyReport := by
  intro i s hwf
  cases i with
  | dispatch b r c => exact exec_dispatch_of_out_of_range (by simpa [Instr.wf] using hwf)
  | rawset c v => exact exec_rawset_of_out_of_range (by simpa [Instr.wf] using hwf)
  | _ => cases hwf

end Sys2Proof
end

section
/-! PROOFS. LOADRAW is one RAWSET per column, which together write the whole of RAW (R113, R187). -/

namespace Sys2Proof

open Claims Laws Machine

/-- The commands of LOADRAW's values from column `k` on (R113). -/
def rawsetsFrom (k : Nat) (vals : List Byte) : List Instr :=
  (vals.zipIdx k).map fun e => .rawset (BitVec.ofNat 4 e.2) e.1

theorem rawsetsFrom_cons (k : Nat) (v : Byte) (vals : List Byte) :
    rawsetsFrom k (v :: vals) = .rawset (BitVec.ofNat 4 k) v :: rawsetsFrom (k + 1) vals := rfl

theorem length_rawsetsFrom (k : Nat) (vals : List Byte) : (rawsetsFrom k vals).length = vals.length := by
  simp [rawsetsFrom]

theorem getElem?_rawsetsFrom (vals : List Byte) {n : Nat} (h : n < vals.length) :
    (rawsetsFrom 0 vals)[n]? = some (.rawset (BitVec.ofNat 4 n) (vals.getD n 0#8)) := by
  simp [rawsetsFrom, h]

theorem expand_loadraw {p : Params} {vals : List Byte} (h : vals.length = p.cols) :
    Pseudo.expand p (.loadraw vals) = some (rawsetsFrom 0 vals) :=
  if_pos h

/-- Two chips of at most 8 columns: a column index fits a command's 4 bits (R10, R104). -/
theorem toNat_ofNat_of_lt_cols {p : Params} {k : Nat} (h : k < p.cols) : (BitVec.ofNat 4 k).toNat = k := by
  rw [BitVec.toNat_ofNat]
  unfold Params.cols at h
  omega

theorem wf_rawset {p : Params} {k : Nat} {v : Byte} (hk : k < p.cols) (hv : Masked p.rowMask v) :
    (Instr.rawset (BitVec.ofNat 4 k) v).wf p = true := by
  have hmask : v &&& ~~~ p.rowMask = 0#8 := hv
  simp only [Instr.wf, toNat_ofNat_of_lt_cols hk, hk, hmask, decide_true, Bool.and_self]

/-- The commands of LOADRAW are in range. -/
theorem wf_of_mem_rawsetsFrom {p : Params} {vals : List Byte} {k : Nat} (hlen : k + vals.length ≤ p.cols)
    (hmasked : ∀ v ∈ vals, Masked p.rowMask v) : ∀ i ∈ rawsetsFrom k vals, i.wf p = true := by
  induction vals generalizing k with
  | nil => simp [rawsetsFrom]
  | cons v vals ih =>
    obtain ⟨hv, hvals⟩ := List.forall_mem_cons.mp hmasked
    rw [List.length_cons] at hlen
    rw [rawsetsFrom_cons, List.forall_mem_cons]
    exact ⟨wf_rawset (by omega) hv, ih (by omega) hvals⟩

/-- RAWSET in range writes its element of RAW (R187). -/
theorem exec_rawset_raw {s : State} {k : Nat} {v : Byte} (hk : k < s.cfg.cols) (hv : Masked s.cfg.rowMask v) :
    ∃ u, exec (.rawset (BitVec.ofNat 4 k) v) s = .next u ∧ u.cfg = s.cfg ∧ u.snap.raw = s.snap.raw.set k v := by
  have hcol : (BitVec.ofNat 4 k).toNat = k := toNat_ofNat_of_lt_cols hk
  refine ⟨complete statusOk [] (s.setSnap { s.snap with raw := s.snap.raw.set k v }), ?_, rfl, rfl⟩
  have hrange : k < s.cfg.cols ∧ v &&& ~~~ s.cfg.rowMask = 0#8 := ⟨hk, hv⟩
  simp only [exec, execRawset, hcol, if_pos hrange]

theorem andThen_next (s : State) (i : Instr) : andThen (.next s) i = exec i s := rfl

/-- The RAWSETs from column `k` on keep RAW below `k` and write their values behind it. -/
theorem foldl_rawsetsFrom {vals : List Byte} {k : Nat} {s : State} (hlen : k + vals.length = s.cfg.cols)
    (hraw : s.snap.raw.length = s.cfg.cols) (hmasked : ∀ v ∈ vals, Masked s.cfg.rowMask v) :
    ∃ t, (rawsetsFrom k vals).foldl andThen (.next s) = .next t ∧ t.snap.raw = s.snap.raw.take k ++ vals := by
  induction vals generalizing k s with
  | nil =>
    refine ⟨s, rfl, ?_⟩
    rw [List.append_nil, List.take_of_length_le (by simp at hlen; omega)]
  | cons v vals ih =>
    obtain ⟨hv, hvals⟩ := List.forall_mem_cons.mp hmasked
    rw [List.length_cons] at hlen
    have hk : k < s.snap.raw.length := by omega
    obtain ⟨u, hexec, hcfg, hset⟩ := exec_rawset_raw (hraw ▸ hk) hv
    rw [← hcfg] at hlen hraw hvals
    obtain ⟨t, hrun, ht⟩ := ih (k := k + 1) (s := u) (by omega) (by rw [hset, List.length_set, hraw]) hvals
    refine ⟨t, by rw [rawsetsFrom_cons, List.foldl_cons, andThen_next, hexec, hrun], ?_⟩
    rw [ht, hset, List.take_add_one, List.take_set_of_le (Nat.le_refl k), List.getElem?_set_self hk, List.append_assoc]
    rfl

/-- Settles O58: every command of the expansion is in range, and by column `COLS` the whole of RAW is written. -/
theorem loadrawLoadsEveryColumn : Obligations.LoadrawLoadsEveryColumn := by
  intro vals s hlen hraw hmasked
  obtain ⟨t, hrun, ht⟩ := foldl_rawsetsFrom (k := 0) (by omega) hraw hmasked
  exact ⟨rawsetsFrom 0 vals, expand_loadraw hlen, (length_rawsetsFrom 0 vals).trans hlen,
    fun n hn => getElem?_rawsetsFrom vals (by omega), wf_of_mem_rawsetsFrom (by omega) hmasked, t, hrun, ht⟩

end Sys2Proof
end

section
/-! SUPPORT. The driver commands: the fields of their words, what a bus call followed by STATUS and RESULT changes and
leaves unchanged, and each command as such calls. -/

namespace Sys2Proof.Machine

open Sys2Proof.Laws

/-! ### The fields of a driver command's word (R107, R108) -/

theorem fields_writeByte (ch : Chip) (reg val : Byte) :
    opField (encode (.writeByte ch reg val)) = 0x0C#6 ∧ fieldChip (encode (.writeByte ch reg val)) = ch ∧
      fieldReg (encode (.writeByte ch reg val)) = reg ∧ fieldByte (encode (.writeByte ch reg val)) = val := by
  refine ⟨opField_encode _, ?_⟩
  simp [encode_writeByte, fieldChip, fieldReg, fieldByte, BitVec.extractLsb'_or]

theorem fields_writeWord (ch : Chip) (reg : Byte) (val : Half) :
    opField (encode (.writeWord ch reg val)) = 0x0D#6 ∧ fieldChip (encode (.writeWord ch reg val)) = ch ∧
      fieldReg (encode (.writeWord ch reg val)) = reg ∧ fieldHalf (encode (.writeWord ch reg val)) = val := by
  refine ⟨opField_encode _, ?_⟩
  simp [encode_writeWord, fieldChip, fieldReg, fieldHalf, BitVec.extractLsb'_or]

theorem fields_readByte (ch : Chip) (reg : Byte) :
    opField (encode (.readByte ch reg)) = 0x0E#6 ∧ fieldChip (encode (.readByte ch reg)) = ch ∧
      fieldReg (encode (.readByte ch reg)) = reg ∧ fieldByte (encode (.readByte ch reg)) = 0#8 := by
  refine ⟨opField_encode _, ?_⟩
  simp [encode_readByte, fieldChip, fieldReg, fieldByte, BitVec.extractLsb'_or]

theorem fields_readWord (ch : Chip) (reg : Byte) :
    opField (encode (.readWord ch reg)) = 0x0F#6 ∧ fieldChip (encode (.readWord ch reg)) = ch ∧
      fieldReg (encode (.readWord ch reg)) = reg ∧ fieldHalf (encode (.readWord ch reg)) = 0#16 := by
  refine ⟨opField_encode _, ?_⟩
  simp [encode_readWord, fieldChip, fieldReg, fieldHalf, BitVec.extractLsb'_or]

/-! ### The two bytes of a word on the bus (R87, R130) -/

@[simp] theorem lowByte_joinBytes (low high : Byte) : lowByte (joinBytes low high) = low := by
  ext i hi
  have hbit : i < 16 := by omega
  simp [lowByte, joinBytes, hi, hbit]

@[simp] theorem highByte_joinBytes (low high : Byte) : highByte (joinBytes low high) = high := by
  ext i hi
  have hbit : i < 16 ∧ 8 + i < 16 := by omega
  simp [highByte, joinBytes, hi, hbit]

/-! ### The block's registers through the bus calls (R91) -/

theorem SameBlock.trans {s t u : State} (h : SameBlock s t) (g : SameBlock t u) : SameBlock s u :=
  ⟨g.cfg.trans h.cfg, g.snap.trans h.snap, g.layer.trans h.layer, g.report.trans h.report, g.dev.trans h.dev,
    g.seq.trans h.seq⟩

theorem SameBlock.setPort {s t : State} (h : SameBlock s t) (v : PortRegs) : SameBlock s (t.setPort v) :=
  h.trans ⟨rfl, rfl, rfl, rfl, rfl, rfl⟩

theorem busWrite_sameBlock (a : BusAddr) (bytes : List Byte) (s : State) : SameBlock s (busWrite a bytes s).2 := by
  constructor <;> simp

theorem busRead_sameBlock (a : BusAddr) (n : Nat) (s : State) : SameBlock s (busRead a n s).2 := by
  constructor <;> simp

/-- STATUS and RESULT are neither events, nor WAKE, nor the environment's. -/
theorem Acts.setPort {s t : State} {own : List Event} (h : Acts s t own) (v : PortRegs) : Acts s (t.setPort v) own :=
  h.congr (by simp) (by simp)

/-! ### What a driver command reports (R281) -/

/-- STATUS and RESULT after a last bus call of status `st`: OK with `res`, or BUS_ERROR with an empty RESULT. -/
def driverPort (st : Byte) (res : List Byte) : PortRegs :=
  if st = 0#8 then ⟨0x00#8, res⟩ else ⟨0x02#8, []⟩

theorem complete_or_busError (st : Byte) (res : List Byte) (u : State) :
    (if st = 0#8 then complete statusOk res u else raise statusBusError u) = u.setPort (driverPort st res) := by
  unfold driverPort
  split <;> rfl

/-! ### One write, and a write and then a read, each with what a command then reports -/

/-- A bus write, then STATUS and RESULT. -/
theorem busWrite_setPort_effect (a : BusAddr) (bytes : List Byte) (s : State) (v : PortRegs) :
    let t := (busWrite a bytes s).2.setPort v
    SameBlock s t ∧ WakeMoves s t ∧ Grows s t [.busW a bytes s.env.nextStatus] ∧
      t.env.writeAnswers = s.env.writeAnswers.tail ∧ t.env.readAnswers = s.env.readAnswers ∧ t.port = v := by
  have acts := (busWrite_acts a bytes s).setPort v
  exact ⟨(busWrite_sameBlock a bytes s).setPort v, acts.wakeMoves, acts.grows, by simp [busWrite_env],
    by simp [busWrite_env], rfl⟩

/-- A bus write, a bus read, then STATUS and RESULT. -/
theorem busWrite_busRead_setPort_effect (a : BusAddr) (bytes : List Byte) (n : Nat) (s : State) (v : PortRegs) :
    let t := (busRead a n (busWrite a bytes s).2).2.setPort v
    let r := s.env.dropStatus.nextRead
    SameBlock s t ∧ WakeMoves s t ∧
      Grows s t [.busW a bytes s.env.nextStatus, .busR a n (r.bytes n) r.status] ∧
      t.env.writeAnswers = s.env.writeAnswers.tail ∧ t.env.readAnswers = s.env.readAnswers.tail ∧ t.port = v := by
  have acts := ((busWrite_acts a bytes s).trans (busRead_acts a n _) (by simp)).setPort v
  rw [busWrite_nextRead] at acts
  exact ⟨((busWrite_sameBlock a bytes s).trans (busRead_sameBlock a n _)).setPort v, acts.wakeMoves, acts.grows,
    by simp [busRead_env, busWrite_env], by simp [busRead_env, busWrite_env], rfl⟩

/-- A command that reads `n` bytes of a register: the register-select write, the read only if that write succeeded, and
in RESULT the bytes as read. -/
theorem registerRead_effect {o : Host.Outcome State Fault Refusal} (a : BusAddr) (reg : Byte) (n : Nat) (s : State)
    (hfailed : s.env.nextStatus ≠ 0#8 → o = .next ((busWrite a [reg] s).2.setPort ⟨0x02#8, []⟩))
    (hok : s.env.nextStatus = 0#8 →
      let r := s.env.dropStatus.nextRead
      o = .next ((busRead a n (busWrite a [reg] s).2).2.setPort (driverPort r.status (r.bytes n)))) :
    ∃ t, o = .next t ∧ SameBlock s t ∧ WakeMoves s t ∧ t.env.writeAnswers = s.env.writeAnswers.tail ∧
      (s.env.nextStatus ≠ 0#8 →
        Grows s t [.busW a [reg] s.env.nextStatus] ∧ t.env.readAnswers = s.env.readAnswers ∧ t.port = ⟨0x02#8, []⟩) ∧
      (s.env.nextStatus = 0#8 →
        let r := s.env.dropStatus.nextRead
        Grows s t [.busW a [reg] 0#8, .busR a n (r.bytes n) r.status] ∧
          t.env.readAnswers = s.env.readAnswers.tail ∧ t.port = driverPort r.status (r.bytes n)) := by
  by_cases h : s.env.nextStatus = 0#8
  · obtain ⟨hblock, hwake, hgrows, hwrites, hreads, hport⟩ := busWrite_busRead_setPort_effect a [reg] n s _
    rw [h] at hgrows
    exact ⟨_, hok h, hblock, hwake, hwrites, absurd h, fun _ => ⟨hgrows, hreads, hport⟩⟩
  · obtain ⟨hblock, hwake, hgrows, hwrites, hreads, hport⟩ := busWrite_setPort_effect a [reg] s _
    exact ⟨_, hfailed h, hblock, hwake, hwrites, fun _ => ⟨hgrows, hreads, hport⟩, fun h0 => absurd h0 h⟩

/-! ### Each driver command as bus calls (R131 to R134) -/

theorem exec_writeByte (ch : Chip) (reg val : Byte) (s : State) :
    exec (.writeByte ch reg val) s = .next ((busWrite (s.cfg.chipAddr ch) [reg, val] s).2.setPort
      (driverPort s.env.nextStatus [])) := by
  simp only [exec, execWriteByte, drvWriteByte_fst, decide_eq_true_eq, complete_or_busError]
  rfl

theorem exec_writeWord (ch : Chip) (reg : Byte) (val : Half) (s : State) :
    exec (.writeWord ch reg val) s =
      .next ((busWrite (s.cfg.chipAddr ch) [reg, val.extractLsb' 0 8, val.extractLsb' 8 8] s).2.setPort
        (driverPort s.env.nextStatus [])) := by
  simp only [exec, execWriteWord, drvWriteWord_fst, decide_eq_true_eq, complete_or_busError]
  rfl

theorem exec_readByte_of_failed {ch : Chip} {reg : Byte} {s : State} (h : s.env.nextStatus ≠ 0#8) :
    exec (.readByte ch reg) s = .next ((busWrite (s.cfg.chipAddr ch) [reg] s).2.setPort ⟨0x02#8, []⟩) := by
  simp only [exec, execReadByte, drvReadByte_of_failed ch reg s h]
  rfl

theorem exec_readByte_of_ok {ch : Chip} {reg : Byte} {s : State} (h : s.env.nextStatus = 0#8) :
    let r := s.env.dropStatus.nextRead
    exec (.readByte ch reg) s =
      .next ((busRead (s.cfg.chipAddr ch) 1 (busWrite (s.cfg.chipAddr ch) [reg] s).2).2.setPort
        (driverPort r.status (r.bytes 1))) := by
  simp only [exec, execReadByte, drvReadByte_of_ok ch reg s h, driverPort]
  split <;> rfl

theorem exec_readWord_of_failed {ch : Chip} {reg : Byte} {s : State} (h : s.env.nextStatus ≠ 0#8) :
    exec (.readWord ch reg) s = .next ((busWrite (s.cfg.chipAddr ch) [reg] s).2.setPort ⟨0x02#8, []⟩) := by
  simp only [exec, execReadWord, drvReadWord_of_failed ch reg s h]
  rfl

/-- The value READ_WORD joins from the two bytes read falls into these bytes again. -/
theorem exec_readWord_of_ok {ch : Chip} {reg : Byte} {s : State} (h : s.env.nextStatus = 0#8) :
    let r := s.env.dropStatus.nextRead
    exec (.readWord ch reg) s =
      .next ((busRead (s.cfg.chipAddr ch) 2 (busWrite (s.cfg.chipAddr ch) [reg] s).2).2.setPort
        (driverPort r.status (r.bytes 2))) := by
  simp only [exec, execReadWord, drvReadWord_of_ok ch reg s h, driverPort]
  split
  · rw [if_pos rfl, lowByte_joinBytes, highByte_joinBytes]
    rfl
  · rfl

end Sys2Proof.Machine
end

section
/-! PROOFS. The expander register driver (spec/40_expander_driver.md): what its four commands put on the bus and
report. -/

namespace Sys2Proof.Machine

/-- Settles O17: one bus write, whose status decides what is reported. -/
theorem writeByteResult : Obligations.WriteByteResult := fun ch reg val s =>
  ⟨fields_writeByte ch reg val, _, exec_writeByte ch reg val s, busWrite_setPort_effect _ _ s _⟩

/-- Settles O18: one bus write, whose status decides what is reported. -/
theorem writeWordResult : Obligations.WriteWordResult := fun ch reg val s =>
  ⟨fields_writeWord ch reg val, _, exec_writeWord ch reg val s, busWrite_setPort_effect _ _ s _⟩

/-- Settles O19: a register read of one byte. -/
theorem readByteResult : Obligations.ReadByteResult := fun ch reg s =>
  ⟨fields_readByte ch reg, registerRead_effect _ reg 1 s exec_readByte_of_failed exec_readByte_of_ok⟩

/-- Settles O20: a register read of two bytes. -/
theorem readWordResult : Obligations.ReadWordResult := fun ch reg s =>
  ⟨fields_readWord ch reg, registerRead_effect _ reg 2 s exec_readWord_of_failed exec_readWord_of_ok⟩

end Sys2Proof.Machine
end

section
/-! PROOFS. R151, R153: the scanner's state machine runs the scan of the pseudocode. A run is followed backwards from
where it ends, one row of R151's table at a time. -/

namespace Sys2Proof.Machine

/-- The rest of a run of the state machine, for at most `n` steps, once a step has reached `t`. -/
def scanFsmResume : Nat → State → State
  | 0, t => t
  | n + 1, t => if t.seq.scanState = .idle then t else scanFsmResume n (scanFsmStep t)

theorem scanFsmRun_eq_resume (n : Nat) (s : State) : scanFsmRun n s = scanFsmResume n (scanFsmStep s) := by
  induction n generalizing s with
  | zero => rfl
  | succ n ih => simp only [scanFsmRun, scanFsmResume, ih]

/-- From `t` the state machine is IDLE again, at `u`, after at most `n` steps. -/
def Finishes (n : Nat) (t u : State) : Prop :=
  ∀ m, n ≤ m → scanFsmResume m t = u

theorem Finishes.of_idle {t : State} (h : t.seq.scanState = .idle) : Finishes 0 t t := by
  intro m _
  cases m with
  | zero => rfl
  | succ m => exact if_pos h

theorem Finishes.mono {n k : Nat} {t u : State} (h : Finishes n t u) (hle : n ≤ k) : Finishes k t u :=
  fun m hm => h m (hle.trans hm)

/-- One step, from a state that is not IDLE. -/
theorem Finishes.of_step {n : Nat} {t u : State} (ht : t.seq.scanState ≠ .idle) (h : Finishes n (scanFsmStep t) u) :
    Finishes (n + 1) t u := by
  intro m hm
  obtain ⟨m, rfl⟩ : ∃ k, m = k + 1 := ⟨m - 1, by omega⟩
  exact (if_neg ht).trans (h m (by omega))

/-! ### The rows of R151's table -/

theorem scanFsmStep_idle {s : State} (h : s.seq.scanState = .idle) :
    scanFsmStep s = chipEntry .chip0 0 (beginScan s) := by
  simp only [scanFsmStep, h]

theorem scanFsmStep_select (c : Chip) (i : Nat) (s : State) :
    scanFsmStep (scanAt .select c i s) =
      if (selectWrite c i (scanAt .select c i s)).1 then
        scanAt .settle c i (selectWrite c i (scanAt .select c i s)).2
      else
        chipEntry c (i + 1) (storeRaw (s.cfg.colIndex c i) 0x00#8 (selectWrite c i (scanAt .select c i s)).2) := rfl

theorem scanFsmStep_settle (c : Chip) (i : Nat) (s : State) :
    scanFsmStep (scanAt .settle c i s) = scanAt .sample c i (waitFor .settle (scanAt .settle c i s)) := rfl

theorem scanFsmStep_sample (c : Chip) (i : Nat) (s : State) :
    scanFsmStep (scanAt .sample c i s) = chipEntry c (i + 1) (sampleStore c i (scanAt .sample c i s)) := rfl

theorem scanFsmStep_park (c : Chip) (i : Nat) (s : State) :
    scanFsmStep (scanAt .park c i s) = nextChipEntry c (parkWrite c (scanAt .park c i s)) := rfl

theorem chipEntry_of_ready {c : Chip} {s : State} (h : s.dev.ready c = true) (i : Nat) :
    chipEntry c i s = enterReady c i s := by
  cases c <;> exact if_pos h

/-! ### Columns, chips and the whole scan -/

/-- From SELECT the state machine does one column of the pseudocode, in one step or in three. -/
theorem Finishes.of_column {n : Nat} {c : Chip} {i : Nat} {s u : State}
    (h : Finishes n (chipEntry c (i + 1) (scanColumn c s i)) u) : Finishes (n + 3) (scanAt .select c i s) u := by
  have select : (scanAt .select c i s).seq.scanState ≠ .idle := by simp
  unfold scanColumn at h
  dsimp only at h
  split at h
  · refine .of_step select ?_
    rw [scanFsmStep_select, if_pos ‹_›]
    refine .of_step (by simp) ?_
    rw [scanFsmStep_settle]
    exact .of_step (by simp) h
  · refine (Finishes.of_step select ?_).mono (k := n + 3) (by omega : n + 1 ≤ n + 3)
    rwa [scanFsmStep_select, if_neg ‹_›]

/-- From the entry at column `i` of a ready chip, with `k` columns left: these columns, then the park write. -/
theorem Finishes.of_columns {n k : Nat} {c : Chip} {i : Nat} {s u : State} (hready : s.dev.ready c = true)
    (hk : i + k = s.cfg.colsOf c)
    (h : Finishes n (nextChipEntry c
      (parkWrite c (scanAt .park c (s.cfg.colsOf c) ((List.range' i k).foldl (scanColumn c) s)))) u) :
    Finishes (n + 1 + 3 * k) (enterReady c i s) u := by
  induction k generalizing i s with
  | zero =>
    rw [← hk] at h
    rw [enterReady, if_neg (by omega)]
    exact .of_step (by simp) h
  | succ k ih =>
    rw [enterReady, if_pos (by omega)]
    refine Finishes.of_column (n := n + 1 + 3 * k) ?_
    rw [chipEntry_of_ready (by simpa using hready)]
    exact ih (by simpa using hready) (by rw [scanColumn_cfg]; omega) (by simpa [List.range'_succ] using h)

theorem scanChip_of_not_ready {c : Chip} {s : State} (h : ¬ s.dev.ready c = true) : scanChip c s = s :=
  if_neg h

theorem colsOf_le (p : Params) (c : Chip) : p.colsOf c ≤ 8 := by
  cases c <;> exact Nat.le_of_lt_succ (Fin.isLt _)

/-- From the entry at a chip: that chip's part of the pseudocode, in at most 25 steps. -/
theorem Finishes.of_chip {n : Nat} {c : Chip} {s u : State} (hready : s.dev.ready c = true)
    (h : Finishes n (nextChipEntry c (scanChip c s)) u) : Finishes (n + 25) (chipEntry c 0 s) u := by
  rw [scanChip, if_pos hready, List.range_eq_range'] at h
  rw [chipEntry_of_ready hready]
  have hcols := colsOf_le s.cfg c
  exact (Finishes.of_columns hready (by omega) h).mono (by omega)

theorem finishes_chip1 (s : State) : Finishes 25 (enterChip1 0 s) (endScan (scanChip .chip1 s)) := by
  have ended : Finishes 0 (endScan (scanChip .chip1 s)) (endScan (scanChip .chip1 s)) := .of_idle (by simp)
  by_cases hready : s.dev.ready .chip1 = true
  · exact Finishes.of_chip hready ended
  · rw [enterChip1, if_neg hready]
    rw [scanChip_of_not_ready hready] at ended ⊢
    exact ended.mono (by omega)

theorem finishes_chip0 (s : State) :
    Finishes 50 (enterChip0 0 s) (endScan (scanChip .chip1 (scanChip .chip0 s))) := by
  have chip1 := finishes_chip1 (scanChip .chip0 s)
  by_cases hready : s.dev.ready .chip0 = true
  · exact Finishes.of_chip hready chip1
  · rw [enterChip0, if_neg hready]
    rw [scanChip_of_not_ready hready] at chip1 ⊢
    exact chip1.mono (by omega)

/-- Settles O26: after the step that starts the scan, both chips take at most 50 steps. -/
theorem scannerMachineRunsTheScan : Obligations.ScannerMachineRunsTheScan := by
  intro s hidle
  rw [scanFsmRun_eq_resume, scanFsmStep_idle hidle]
  exact finishes_chip0 (beginScan s) 51 (by omega)

end Sys2Proof.Machine
end

section
/-! SUPPORT. A register write as one event and one answer taken, and a chip's initialization under the write answers that
the environment gives (R160). -/

namespace Sys2Proof.Machine

open Sys2Proof.Claims

/-! ### The configuration writes -/

@[simp] theorem drvWriteByte_writeAnswers (c : Chip) (g v : Byte) (s : State) :
    (drvWriteByte c g v s).2.env.writeAnswers = s.env.writeAnswers.tail := by
  simp [drvWriteByte, busWrite_env]

/-- The status of a write whose answer the environment has listed. -/
theorem nextStatus_of_cons {e : Env} {st : Byte} {rest : List Byte} (h : e.writeAnswers = st :: rest) :
    e.nextStatus = st := by
  simp [Env.nextStatus, h]

/-- The answer of a read that the environment has listed. -/
theorem nextRead_of_cons {e : Env} {a : ReadAnswer} {rest : List ReadAnswer} (h : e.readAnswers = a :: rest) :
    e.nextRead = a := by
  simp [Env.nextRead, h]

theorem configure_of_failed {c : Chip} {w : Byte × Byte} {s : State} (h : s.env.nextStatus ≠ 0#8)
    (l : List (Byte × Byte)) : configure c (w :: l) s = (false, (drvWriteByte c w.1 w.2 s).2) := by
  simp [configure, h]

theorem configure_of_ok {c : Chip} {w : Byte × Byte} {s : State} (h : s.env.nextStatus = 0#8)
    (l : List (Byte × Byte)) : configure c (w :: l) s = configure c l (drvWriteByte c w.1 w.2 s).2 := by
  simp [configure, h]

theorem configure_singleton (c : Chip) (w : Byte × Byte) (s : State) :
    configure c [w] s = drvWriteByte c w.1 w.2 s := by
  by_cases h : s.env.nextStatus = 0#8
  · rw [configure_of_ok h]
    exact Prod.ext (by simp [configure, h]) rfl
  · rw [configure_of_failed h]
    exact Prod.ext (by simp [h]) rfl

theorem configure_append (c : Chip) (l m : List (Byte × Byte)) (s : State) :
    configure c (l ++ m) s =
      if (configure c l s).1 then configure c m (configure c l s).2 else (false, (configure c l s).2) := by
  induction l generalizing s with
  | nil => rfl
  | cons w l ih =>
    by_cases h : s.env.nextStatus = 0#8
    · rw [List.cons_append, configure_of_ok h, configure_of_ok h, ih]
    · rw [List.cons_append, configure_of_failed h, configure_of_failed h]
      rfl

/-- A chip's initialization is its configuration writes and the park write, up to the first failure (R160, D10). -/
theorem initChip_eq (c : Chip) (s : State) :
    initChip c s =
      (configure c (initWrites s.cfg) s).2.setDev (s.dev.setReady c (configure c (initWrites s.cfg) s).1) := by
  rw [initWrites, configure_append]
  unfold initChip
  dsimp only
  split
  · simp [configure_singleton, parkValue]
  · simp

/-- `w` are the answers to the writes of `l`: after them the writes have ended with `ok` and the events `own`. -/
structure Configures (c : Chip) (l : List (Byte × Byte)) (s : State) (ok : Bool) (own : List Event)
    (rest : List Byte) : Prop where
  ok_eq : (configure c l s).1 = ok
  acts : Acts s (configure c l s).2 own
  writes : (configure c l s).2.env.writeAnswers = rest

/-- A write that succeeds, then the others. -/
theorem Configures.cons {c : Chip} {w : Byte × Byte} {l : List (Byte × Byte)} {s : State} {ok : Bool}
    {own : List Event} {rest : List Byte} (hst : s.env.nextStatus = 0#8)
    (h : Configures c l (drvWriteByte c w.1 w.2 s).2 ok own rest) :
    Configures c (w :: l) s ok (okWrite s.cfg c w :: own) rest := by
  obtain ⟨hok, acts, writes⟩ := h
  have first := drvWriteByte_acts c w.1 w.2 s
  rw [hst] at first
  constructor
  · rw [configure_of_ok hst, hok]
  · rw [configure_of_ok hst]; exact first.trans acts (by simp)
  · rw [configure_of_ok hst, writes]

theorem configures_of_ok (c : Chip) (l : List (Byte × Byte)) {s : State} {rest : List Byte}
    (h : s.env.writeAnswers = List.replicate l.length 0#8 ++ rest) :
    Configures c l s true (l.map (okWrite s.cfg c)) rest := by
  induction l generalizing s with
  | nil => exact ⟨rfl, .refl s, h⟩
  | cons w l ih =>
    have tail := ih (s := (drvWriteByte c w.1 w.2 s).2) (by simp [h, List.replicate_succ])
    rw [drvWriteByte_cfg] at tail
    exact .cons (nextStatus_of_cons h) tail

/-- The writes up to number `n` succeed, and that one fails. -/
theorem configures_of_failure (c : Chip) (l : List (Byte × Byte)) {n : Nat} {st : Byte} {s : State} {rest : List Byte}
    (hn : n < l.length) (hst : st ≠ 0#8) (h : s.env.writeAnswers = List.replicate n 0#8 ++ st :: rest) :
    Configures c l s false
      ((l.take n).map (okWrite s.cfg c) ++
        [.busW (s.cfg.chipAddr c) [(l.getD n (0#8, 0#8)).1, (l.getD n (0#8, 0#8)).2] st]) rest := by
  induction l generalizing s n with
  | nil => exact absurd hn (Nat.not_lt_zero n)
  | cons w l ih =>
    cases n with
    | zero =>
      have status : s.env.nextStatus = st := nextStatus_of_cons h
      have hfail := configure_of_failed (c := c) (w := w) (status ▸ hst) l
      have acts := drvWriteByte_acts c w.1 w.2 s
      rw [status] at acts
      exact ⟨by rw [hfail], by rw [hfail]; exact acts, by simp [hfail, h]⟩
    | succ n =>
      have tail := ih (s := (drvWriteByte c w.1 w.2 s).2) (Nat.lt_of_succ_lt_succ hn)
        (by simp [h, List.replicate_succ])
      rw [drvWriteByte_cfg] at tail
      exact .cons (nextStatus_of_cons h) tail

/-! ### One chip, and both -/

/-- Under the write answers `w`, a chip's initialization ends with READY `ok`, having made the events `own`. -/
def DrivesInit (p : Params) (c : Chip) (w : List Byte) (ok : Bool) (own : List Event) : Prop :=
  ∀ (s : State) (rest : List Byte), s.cfg = p → s.env.writeAnswers = w ++ rest →
    (initChip c s).dev = s.dev.setReady c ok ∧ (initChip c s).env.writeAnswers = rest ∧ Acts s (initChip c s) own

theorem initChip_of_configures {c : Chip} {s : State} {ok : Bool} {own : List Event} {rest : List Byte}
    (h : Configures c (initWrites s.cfg) s ok own rest) :
    (initChip c s).dev = s.dev.setReady c ok ∧ (initChip c s).env.writeAnswers = rest ∧
      Acts s (initChip c s) own := by
  obtain ⟨hok, acts, writes⟩ := h
  rw [initChip_eq, hok]
  exact ⟨rfl, writes, acts.congr (by simp) (by simp)⟩

theorem length_initWrites (p : Params) : (initWrites p).length = p.cfgSeq.length + 1 := by
  simp [initWrites]

theorem drivesInit_of_ok (p : Params) (c : Chip) :
    DrivesInit p c (List.replicate (p.cfgSeq.length + 1) 0#8) true ((initWrites p).map (okWrite p c)) := by
  rintro s rest rfl h
  rw [← length_initWrites] at h
  exact initChip_of_configures (configures_of_ok c _ h)

theorem drivesInit_of_failure {p : Params} {n : Nat} {st : Byte} (c : Chip) (hn : n ≤ p.cfgSeq.length)
    (hst : st ≠ 0#8) : DrivesInit p c (List.replicate n 0#8 ++ [st]) false (failedInit p c n st) := by
  rintro s rest rfl h
  refine initChip_of_configures (configures_of_failure c _ ?_ hst (by simpa using h))
  rw [length_initWrites]
  omega

theorem acts_setDev (s : State) (v : DevRegs) : Acts s (s.setDev v) [] :=
  (Acts.refl s).congr (by simp) (by simp)

/-- INIT under the answers of both chips' writes: it initializes chip 0 and then, whatever came of that, chip 1. -/
theorem exec_init_of_drivesInit {s : State} {w0 w1 rest : List Byte} {ok0 ok1 : Bool} {own0 own1 : List Event}
    (h0 : DrivesInit s.cfg .chip0 w0 ok0 own0) (h1 : DrivesInit s.cfg .chip1 w1 ok1 own1)
    (hw : s.env.writeAnswers = w0 ++ (w1 ++ rest)) :
    ∃ t, exec .init s = .next t ∧ t.dev = ⟨ok0, ok1, true, true⟩ ∧
      t.port = ⟨0x00#8, [readyByte ⟨ok0, ok1, true, true⟩]⟩ ∧ t.env.writeAnswers = rest ∧
        Grows s t (own0 ++ own1) := by
  obtain ⟨dev0, writes0, acts0⟩ := h0 (setIrqEn false s) (w1 ++ rest) (by simp) (by simpa using hw)
  obtain ⟨dev1, writes1, acts1⟩ := h1 (initChip .chip0 (setIrqEn false s)) rest (by simp) writes0
  have hdev : (initBody s).dev = ⟨ok0, ok1, true, true⟩ := by
    simp [initBody, dev1, dev0, DevRegs.setReady]
  have chips := ((setIrqEn_acts false s).trans acts0 (by simp)).trans acts1 (by simp)
  have flagged := chips.trans (acts_setDev _ { (initChip .chip1 (initChip .chip0 (setIrqEn false s))).dev with
    initialized := true }) (by simp)
  have acts : Acts s (initBody s) _ := flagged.trans (setIrqEn_acts true _) (by simp)
  simp only [List.nil_append, List.append_nil] at acts
  refine ⟨_, rfl, hdev, by rw [complete_port, hdev]; rfl, ?_, (acts.setPort _).grows⟩
  simp [initBody, writes1]

theorem readyByte_eq (d : DevRegs) :
    readyByte d = BitVec.ofNat 8 ((if d.ready0 then 1 else 0) + (if d.ready1 then 2 else 0)) := by
  cases h0 : d.ready0 <;> cases h1 : d.ready1 <;> simp [readyByte, flagByte, h0, h1]

end Sys2Proof.Machine
end

section
/-! PROOFS. Chip initialization (spec/41_matrix_scanner.md R160): what INIT writes, and where it stops. -/

namespace Sys2Proof.Machine

open Sys2Proof.Claims

/-- Settles O27: the configuration writes leave every register but the device flags alone. -/
theorem initResult : Obligations.InitResult := fun s =>
  ⟨_, rfl, by simp, by simp, by simp, by simp, by simp, (initBody_actsSome s).wakeMoves, by simp, by simp,
    by rw [complete_port, readyByte_eq]; rfl⟩

/-- Settles O28: both chips take as many zero answers as they have writes. -/
theorem initConfiguresBothChips : Obligations.InitConfiguresBothChips := by
  intro s hzero hlen
  have answers : s.env.writeAnswers =
      List.replicate (s.cfg.cfgSeq.length + 1) 0#8 ++ (List.replicate (s.cfg.cfgSeq.length + 1) 0#8 ++
        List.replicate (s.env.writeAnswers.length - 2 * (s.cfg.cfgSeq.length + 1)) 0#8) := by
    rw [List.replicate_append_replicate, List.replicate_append_replicate]
    exact List.eq_replicate_iff.mpr ⟨by omega, hzero⟩
  obtain ⟨t, hexec, hdev, hport, -, hgrows⟩ :=
    exec_init_of_drivesInit (drivesInit_of_ok s.cfg .chip0) (drivesInit_of_ok s.cfg .chip1) answers
  exact ⟨t, hexec, hdev, hport, hgrows⟩

/-- Settles O29: a chip takes the answers up to its first failure, and the other chip those that follow. -/
theorem initStopsAtFirstFailure : Obligations.InitStopsAtFirstFailure := by
  refine ⟨fun c s n st rest hn hst hw => ?_, fun s n st rest hn hst => ⟨fun hw => ?_, fun hw => ?_⟩⟩
  · obtain ⟨hdev, hwrites, acts⟩ := drivesInit_of_failure c hn hst s rest rfl (by simpa using hw)
    exact ⟨hdev, hwrites, acts.grows⟩
  · exact exec_init_of_drivesInit (drivesInit_of_failure .chip0 hn hst) (drivesInit_of_ok s.cfg .chip1)
      (by simpa using hw)
  · exact exec_init_of_drivesInit (drivesInit_of_ok s.cfg .chip0) (drivesInit_of_failure .chip1 hn hst)
      (by simpa using hw)

end Sys2Proof.Machine
end

section
/-! SUPPORT. One column of a scan (R153, R155, R283): the three ways it can go, by the statuses of its bus calls, each
with what it stores and its events. -/

namespace Sys2Proof.Machine

open Sys2Proof.Claims

/-! ### The select byte (R154) -/

theorem colSelect_eq_xor (i : Nat) : colSelect i = 0xFF#8 ^^^ (1#8 <<< i) := by
  exact (BitVec.allOnes_xor (x := bitMask i)).symm

theorem colSelect_getLsbD {i b : Nat} (hi : i < 8) (hb : b < 8) : (colSelect i).getLsbD b = decide (b ≠ i) := by
  rw [colSelect, BitVec.getLsbD_not, bitMask, BitVec.getLsbD_shiftLeft, BitVec.getLsbD_one]
  by_cases h : b = i
  · simp [h, hi]
  · have : ¬ b < i → b - i ≠ 0 := by omega
    by_cases hlt : b < i <;> simp_all

theorem selectWrite_acts (c : Chip) (i : Nat) (s : State) :
    Acts s (selectWrite c i s).2 [.busW (s.cfg.chipAddr c) [s.cfg.regColOut, colSelect i] s.env.nextStatus] :=
  drvWriteByte_acts c s.cfg.regColOut (colSelect i) s

/-- The park write of chip `c` (R156). -/
theorem park_acts (c : Chip) (i : Nat) (s : State) :
    Acts s (parkWrite c (scanAt .park c i s))
      [.busW (s.cfg.chipAddr c) [s.cfg.regColOut, parkValue] s.env.nextStatus] :=
  (drvWriteByte_acts c s.cfg.regColOut parkValue (scanAt .park c i s)).congr (by simp) (by simp [parkWrite])

/-! ### The select write and the settle wait -/

/-- Where the scanner takes the row read of a column: the column selected, the settle wait over (R161). -/
def settled (c : Chip) (i : Nat) (s : State) : State :=
  scanAt .sample c i (waitFor .settle (scanAt .settle c i (selectWrite c i (scanAt .select c i s)).2))

theorem scanColumn_of_not_selected {s : State} (h : s.env.nextStatus ≠ 0#8) (c : Chip) (i : Nat) :
    scanColumn c s i = storeRaw (s.cfg.colIndex c i) 0x00#8 (selectWrite c i (scanAt .select c i s)).2 := by
  simp [scanColumn, selectWrite, h]

theorem scanColumn_of_selected {s : State} (h : s.env.nextStatus = 0#8) (c : Chip) (i : Nat) :
    scanColumn c s i = sampleStore c i (settled c i s) := by
  simp [scanColumn, selectWrite, settled, h]

@[simp] theorem settled_cfg (c : Chip) (i : Nat) (s : State) : (settled c i s).cfg = s.cfg := by
  simp [settled]

@[simp] theorem settled_snap (c : Chip) (i : Nat) (s : State) : (settled c i s).snap = s.snap := by
  simp [settled]

@[simp] theorem settled_dev (c : Chip) (i : Nat) (s : State) : (settled c i s).dev = s.dev := by
  simp [settled]

theorem settled_env (c : Chip) (i : Nat) (s : State) :
    (settled c i s).env = { s.env.dropStatus with edges := s.env.edges.tail.tail } := by
  simp [settled, selectWrite, drvWriteByte, busWrite_env, interleave_env]

theorem settled_acts (c : Chip) (i : Nat) (s : State) :
    Acts s (settled c i s)
      [.busW (s.cfg.chipAddr c) [s.cfg.regColOut, colSelect i] s.env.nextStatus, .wait .settle] := by
  have select := selectWrite_acts c i (scanAt .select c i s)
  have wait := waitFor_acts .settle (scanAt .settle c i (selectWrite c i (scanAt .select c i s)).2)
  have both := select.trans (wait.congr (by simp) (t' := settled c i s) (by simp [settled])) (by simp)
  exact both.congr (by simp) (by simp)

/-! ### The row read and the store -/

theorem sampleStore_of_failed {s : State} (h : s.env.nextStatus ≠ 0#8) (c : Chip) (i : Nat) :
    sampleStore c i s =
      storeRaw (s.cfg.colIndex c i) 0x00#8 (busWrite (s.cfg.chipAddr c) [s.cfg.regRowIn] s).2 := by
  simp [sampleStore, drvReadByte_of_failed c _ s h]

theorem sampleStore_of_ok {s : State} (h : s.env.nextStatus = 0#8) (c : Chip) (i : Nat) :
    sampleStore c i s =
      storeRaw (s.cfg.colIndex c i) (sampled s.cfg s.env.dropStatus.nextRead)
        (busRead (s.cfg.chipAddr c) 1 (busWrite (s.cfg.chipAddr c) [s.cfg.regRowIn] s).2).2 := by
  simp only [sampleStore, drvReadByte_of_ok c _ s h, sampled]
  split <;> rfl

/-! ### The three ways of a column -/

/-- A column that stores `v`, touching no other snapshot register, with the events `own`. -/
structure ColumnEffect (c : Chip) (i : Nat) (s : State) (v : Byte) (own : List Event) : Prop where
  snap : (scanColumn c s i).snap = { s.snap with raw := s.snap.raw.set (s.cfg.colIndex c i) v }
  acts : Acts s (scanColumn c s i) own

/-- The select write fails: no other bus call. -/
theorem scanColumn_effect_of_not_selected {s : State} (h : s.env.nextStatus ≠ 0#8) (c : Chip) (i : Nat) :
    ColumnEffect c i s 0x00#8 [.busW (s.cfg.chipAddr c) [s.cfg.regColOut, colSelect i] s.env.nextStatus] := by
  constructor
  · rw [scanColumn_of_not_selected h]; simp
  · rw [scanColumn_of_not_selected h]
    exact (selectWrite_acts c i (scanAt .select c i s)).congr (by simp) (by simp)

/-- The register-select write fails: no read. -/
theorem scanColumn_effect_of_not_addressed {s : State} (hselect : s.env.nextStatus = 0#8)
    (h : s.env.dropStatus.nextStatus ≠ 0#8) (c : Chip) (i : Nat) :
    ColumnEffect c i s 0x00#8
      [.busW (s.cfg.chipAddr c) [s.cfg.regColOut, colSelect i] 0#8, .wait .settle,
       .busW (s.cfg.chipAddr c) [s.cfg.regRowIn] s.env.dropStatus.nextStatus] := by
  have status : (settled c i s).env.nextStatus = s.env.dropStatus.nextStatus := by rw [settled_env]; rfl
  have column := (scanColumn_of_selected hselect c i).trans (sampleStore_of_failed (status ▸ h) c i)
  constructor
  · rw [column]; simp
  · have acts := (settled_acts c i s).trans
      (busWrite_acts (s.cfg.chipAddr c) [s.cfg.regRowIn] (settled c i s)) (by simp)
    rw [hselect, status] at acts
    rw [column, settled_cfg]
    exact acts.congr (by simp) (by simp)

/-- Both writes succeed: the read's answer decides what is stored. -/
theorem scanColumn_effect_of_read {s : State} (hselect : s.env.nextStatus = 0#8)
    (h : s.env.dropStatus.nextStatus = 0#8) (c : Chip) (i : Nat) :
    ColumnEffect c i s (sampled s.cfg s.env.dropStatus.dropStatus.nextRead)
      (columnTrace s.cfg c i s.env.dropStatus.dropStatus.nextRead) := by
  have status : (settled c i s).env.nextStatus = 0#8 := by rw [settled_env]; exact h
  have read : (settled c i s).env.dropStatus.nextRead = s.env.dropStatus.dropStatus.nextRead := by
    rw [settled_env, Env.dropStatus_edges_with]; rfl
  have column := (scanColumn_of_selected hselect c i).trans (sampleStore_of_ok status c i)
  rw [read] at column
  constructor
  · rw [column]; simp
  · have acts := ((settled_acts c i s).trans
      (busWrite_acts (s.cfg.chipAddr c) [s.cfg.regRowIn] (settled c i s)) (by simp)).trans
      (busRead_acts (s.cfg.chipAddr c) 1 _) (by simp)
    rw [hselect, status, busWrite_nextRead, read] at acts
    rw [column, settled_cfg]
    exact acts.congr (by simp) (by simp)

/-- The answers such a column takes: two writes and a read. -/
theorem scanColumn_env_of_read {s : State} (hselect : s.env.nextStatus = 0#8)
    (h : s.env.dropStatus.nextStatus = 0#8) (c : Chip) (i : Nat) :
    (scanColumn c s i).env.writeAnswers = s.env.writeAnswers.tail.tail ∧
      (scanColumn c s i).env.readAnswers = s.env.readAnswers.tail := by
  have status : (settled c i s).env.nextStatus = 0#8 := by rw [settled_env]; exact h
  rw [scanColumn_of_selected hselect, sampleStore_of_ok status]
  simp [busRead_env, busWrite_env, settled_env]

/-! ### What a scan takes of the HID transport's answers: nothing -/

@[simp] theorem drvReadByte_sendAnswers (c : Chip) (g : Byte) (s : State) :
    (drvReadByte c g s).2.env.sendAnswers = s.env.sendAnswers := by
  by_cases h : s.env.nextStatus = 0#8
  · simp [drvReadByte_of_ok c g s h, busRead_env, busWrite_env]
  · simp [drvReadByte_of_failed c g s h, busWrite_env]

@[simp] theorem drvWriteByte_sendAnswers (c : Chip) (g v : Byte) (s : State) :
    (drvWriteByte c g v s).2.env.sendAnswers = s.env.sendAnswers := by
  simp [drvWriteByte, busWrite_env]

@[simp] theorem scanColumn_sendAnswers (c : Chip) (s : State) (i : Nat) :
    (scanColumn c s i).env.sendAnswers = s.env.sendAnswers := by
  by_cases h : s.env.nextStatus = 0#8
  · simp [scanColumn_of_selected h, sampleStore, settled_env]
  · simp [scanColumn_of_not_selected h, selectWrite]

@[simp] theorem scanColumns_sendAnswers (c : Chip) (l : List Nat) (s : State) :
    (l.foldl (scanColumn c) s).env.sendAnswers = s.env.sendAnswers :=
  foldl_keeps (fun t => t.env.sendAnswers) (scanColumn c) (scanColumn_sendAnswers c) l s

@[simp] theorem scanChip_sendAnswers (c : Chip) (s : State) :
    (scanChip c s).env.sendAnswers = s.env.sendAnswers := by
  unfold scanChip
  split <;> simp [parkWrite]

@[simp] theorem scanBody_sendAnswers (s : State) : (scanBody s).env.sendAnswers = s.env.sendAnswers := by
  simp [scanBody, endScan, beginScan]

end Sys2Proof.Machine
end

section
/-! SUPPORT. Which two-byte writes a scan makes (R154, R156): an operation whose events of the block all have one
property, and the scan's as such operations. -/

namespace Sys2Proof.Machine

open Sys2Proof.Claims

/-- `t` follows `s` by events of the block that all satisfy `P`. -/
def ActsOnly (P : Event → Prop) (s t : State) : Prop :=
  ∃ own, Acts s t own ∧ ∀ e ∈ own, P e

theorem ActsOnly.refl (P : Event → Prop) (s : State) : ActsOnly P s s :=
  ⟨[], .refl s, by simp⟩

theorem ActsOnly.trans {P : Event → Prop} {s t u : State} (h : ActsOnly P s t) (g : ActsOnly P t u)
    (hm : s.dev.irqEn = false → t.dev.irqEn = false) : ActsOnly P s u := by
  obtain ⟨a, ha, hP⟩ := h
  obtain ⟨b, hb, hQ⟩ := g
  exact ⟨a ++ b, ha.trans hb hm, fun e he => (List.mem_append.mp he).elim (hP e) (hQ e)⟩

theorem ActsOnly.of_silent {P : Event → Prop} {s t : State} (h : Acts s t []) : ActsOnly P s t :=
  ⟨[], h, by simp⟩

/-- A new event of the trace that is no interrupt entry is one of the block's own. -/
theorem ActsOnly.trace {P : Event → Prop} {s t : State} (h : ActsOnly P s t) :
    ∃ more, t.trace = s.trace ++ more ∧ ∀ e ∈ more, isIrq e = false → P e := by
  obtain ⟨own, acts, hP⟩ := h
  obtain ⟨more, htrace, hown, -, -⟩ := acts.trace
  refine ⟨more, htrace, fun e he hirq => hP e ?_⟩
  rw [← hown]
  exact List.mem_filter.mpr ⟨he, by simp [hirq]⟩

/-- The byte parks chip `c` or selects one of its own columns. -/
def ParksOrSelects (p : Params) (c : Chip) (val : Byte) : Prop :=
  val = parkValue ∨ ∃ i, i < p.colsOf c ∧ val = colSelect i

/-- A two-byte write goes to a chip's column port, and parks that chip or selects one of its own columns. -/
def ScanWrite (p : Params) (e : Event) : Prop :=
  ∀ (a : BusAddr) (reg val st : Byte), e = .busW a [reg, val] st →
    ∃ c : Chip, a = p.chipAddr c ∧ reg = p.regColOut ∧ ParksOrSelects p c val

theorem scanWrite_columnPort {p : Params} {c : Chip} {val : Byte} (h : ParksOrSelects p c val) (st : Byte) :
    ScanWrite p (.busW (p.chipAddr c) [p.regColOut, val] st) := by
  rintro a reg v st' ⟨⟩
  exact ⟨c, rfl, rfl, h⟩

/-- No other event of a scan is a two-byte write. -/
theorem scanWrite_of_other {p : Params} {e : Event} (h : ∀ a reg val st, e ≠ .busW a [reg, val] st) :
    ScanWrite p e :=
  fun a reg val st he => absurd he (h a reg val st)

theorem scanColumn_scanWrites {c : Chip} {i : Nat} {s : State} (hi : i < s.cfg.colsOf c) :
    ActsOnly (ScanWrite s.cfg) s (scanColumn c s i) := by
  have select (st : Byte) : ScanWrite s.cfg (.busW (s.cfg.chipAddr c) [s.cfg.regColOut, colSelect i] st) :=
    scanWrite_columnPort (.inr ⟨i, hi, rfl⟩) st
  have wait : ScanWrite s.cfg (.wait .settle) := scanWrite_of_other (by simp)
  have regSelect (st : Byte) : ScanWrite s.cfg (.busW (s.cfg.chipAddr c) [s.cfg.regRowIn] st) :=
    scanWrite_of_other (by simp)
  have read (b : List Byte) (st : Byte) : ScanWrite s.cfg (.busR (s.cfg.chipAddr c) 1 b st) :=
    scanWrite_of_other (by simp)
  by_cases hselect : s.env.nextStatus = 0#8
  · by_cases haddress : s.env.dropStatus.nextStatus = 0#8
    · exact ⟨_, (scanColumn_effect_of_read hselect haddress c i).acts,
        List.forall_mem_cons.mpr ⟨select _, by simp [wait, regSelect, read]⟩⟩
    · exact ⟨_, (scanColumn_effect_of_not_addressed hselect haddress c i).acts, by simp [select, wait, regSelect]⟩
  · exact ⟨_, (scanColumn_effect_of_not_selected hselect c i).acts, by simp [select]⟩

theorem scanColumns_scanWrites {c : Chip} {l : List Nat} {s : State} (hl : ∀ i ∈ l, i < s.cfg.colsOf c) :
    ActsOnly (ScanWrite s.cfg) s (l.foldl (scanColumn c) s) := by
  induction l generalizing s with
  | nil => exact .refl _ s
  | cons i l ih =>
    obtain ⟨hi, hl⟩ := List.forall_mem_cons.mp hl
    have others := ih (s := scanColumn c s i) (by simpa using hl)
    rw [scanColumn_cfg] at others
    exact (scanColumn_scanWrites hi).trans others (by simp)

theorem scanChip_scanWrites (c : Chip) (s : State) : ActsOnly (ScanWrite s.cfg) s (scanChip c s) := by
  unfold scanChip
  split
  · refine (scanColumns_scanWrites (c := c) (l := List.range (s.cfg.colsOf c)) (by simp)).trans ?_ (by simp)
    have park := park_acts c (s.cfg.colsOf c) ((List.range (s.cfg.colsOf c)).foldl (scanColumn c) s)
    rw [scanColumns_cfg] at park
    exact ⟨_, park, List.forall_mem_singleton.mpr (scanWrite_columnPort (.inl rfl) _)⟩
  · exact .refl _ s

theorem scanBody_scanWrites (s : State) : ActsOnly (ScanWrite s.cfg) s (scanBody s) := by
  have chip0 := scanChip_scanWrites .chip0 (beginScan s)
  have chip1 := scanChip_scanWrites .chip1 (scanChip .chip0 (beginScan s))
  rw [scanChip_cfg] at chip1
  rw [beginScan_cfg] at chip0 chip1
  exact (((ActsOnly.of_silent (beginScan_acts s)).trans chip0 (by simp)).trans chip1 (by simp)).trans
    (.of_silent (endScan_acts _)) (by simp)

end Sys2Proof.Machine
end

section
/-! SUPPORT. A scan whose bus writes the environment answers 0, the park writes excepted: what it stores, its events and
the answers it takes (R153, R155, R156, R158). -/

namespace Sys2Proof.Machine

open Sys2Proof.Claims

/-! ### Bytes stored from one index on -/

/-- RAW once the bytes are stored one after the other from `idx` on. -/
def storeFrom (idx : Nat) : List Byte → Snapshot → Snapshot
  | [], raw => raw
  | v :: vs, raw => storeFrom (idx + 1) vs (raw.set idx v)

/-- They replace as many bytes. -/
theorem storeFrom_append {vs old : List Byte} (h : old.length = vs.length) (before after : Snapshot) :
    storeFrom before.length vs (before ++ (old ++ after)) = before ++ (vs ++ after) := by
  induction vs generalizing old before with
  | nil => rw [List.length_eq_zero_iff.mp h]; rfl
  | cons v vs ih =>
    obtain ⟨w, old, rfl⟩ := List.exists_cons_of_length_eq_add_one h
    have tail := ih (Nat.succ.inj h) (before ++ [v])
    simpa [storeFrom] using tail

/-- The part of RAW that belongs to a chip, all zero before the chip is scanned (R10, R158). -/
theorem storeFrom_chip {p : Params} {c : Chip} {ready : Bool} {as : List ReadAnswer}
    (h : as.length = readsOf p c ready) (before after : Snapshot) :
    storeFrom before.length (as.map (sampled p)) (before ++ (List.replicate (p.colsOf c) 0#8 ++ after)) =
      before ++ (chipRaw p c ready as ++ after) := by
  cases ready with
  | true => exact storeFrom_append (by rw [List.length_replicate, List.length_map, h]; rfl) before after
  | false => rw [List.length_eq_zero_iff.mp h]; rfl

/-! ### Runs of columns -/

/-- From `s` to `t` a part of a scan stores the bytes `vs` from `idx` on, with the events `own`, and leaves the answers
`writes` and `reads` to come. -/
structure Samples (s t : State) (idx : Nat) (vs : List Byte) (own : List Event) (writes : List Byte)
    (reads : List ReadAnswer) : Prop where
  acts : Acts s t own
  raw : t.snap.raw = storeFrom idx vs s.snap.raw
  writes_eq : t.env.writeAnswers = writes
  reads_eq : t.env.readAnswers = reads

theorem Samples.cons {s t u : State} {idx : Nat} {v : Byte} {vs : List Byte} {own own' : List Event}
    {writes writes' : List Byte} {reads reads' : List ReadAnswer} (h : Samples s t idx [v] own writes reads)
    (g : Samples t u (idx + 1) vs own' writes' reads') (hm : s.dev.irqEn = false → t.dev.irqEn = false) :
    Samples s u idx (v :: vs) (own ++ own') writes' reads' where
  acts := h.acts.trans g.acts hm
  raw := by rw [g.raw, h.raw]; rfl
  writes_eq := g.writes_eq
  reads_eq := g.reads_eq

/-- A column whose two writes are answered 0. -/
theorem scanColumn_samples {s : State} {rest : List Byte} {a : ReadAnswer} {reads : List ReadAnswer}
    (hw : s.env.writeAnswers = 0#8 :: 0#8 :: rest) (hr : s.env.readAnswers = a :: reads) (c : Chip) (i : Nat) :
    Samples s (scanColumn c s i) (s.cfg.colIndex c i) [sampled s.cfg a] (columnTrace s.cfg c i a) rest reads := by
  have select := nextStatus_of_cons hw
  have address : s.env.dropStatus.nextStatus = 0#8 := nextStatus_of_cons (rest := rest) (by simp [hw])
  have read : s.env.dropStatus.dropStatus.nextRead = a := nextRead_of_cons (rest := reads) (by simp [hr])
  obtain ⟨snap, acts⟩ := scanColumn_effect_of_read select address c i
  obtain ⟨writes, reads_eq⟩ := scanColumn_env_of_read select address c i
  rw [read] at snap acts
  exact ⟨acts, congrArg SnapRegs.raw snap, by rw [writes, hw]; rfl, by rw [reads_eq, hr]; rfl⟩

theorem scanColumns_samples (c : Chip) (i : Nat) {s : State} {as : List ReadAnswer} {rest : List Byte}
    {reads : List ReadAnswer} (hw : s.env.writeAnswers = List.replicate (2 * as.length) 0#8 ++ rest)
    (hr : s.env.readAnswers = as ++ reads) :
    Samples s ((List.range' i as.length).foldl (scanColumn c) s) (s.cfg.colIndex c i) (as.map (sampled s.cfg))
      ((as.zipIdx i).flatMap fun e => columnTrace s.cfg c e.2 e.1) rest reads := by
  induction as generalizing i s with
  | nil => exact ⟨.refl s, rfl, hw, hr⟩
  | cons a as ih =>
    have column := scanColumn_samples (by simpa [Nat.mul_succ, List.replicate_succ] using hw) hr c i
    have others := ih (i + 1) column.writes_eq column.reads_eq
    rw [scanColumn_cfg] at others
    exact column.cons others (by simp)

/-! ### Chips -/

/-- The write answers of a chip's scan: two a column and the park write's, none when it is not ready. -/
def chipAnswers (ready : Bool) (n : Nat) (park : Byte) : List Byte :=
  if ready then List.replicate (2 * n) 0#8 ++ [park] else []

/-- The events of a chip's scan under these answers. -/
def chipEvents (p : Params) (c : Chip) (ready : Bool) (as : List ReadAnswer) (park : Byte) : List Event :=
  if ready then chipTraceParked p c as park else []

theorem scanChip_samples {c : Chip} {s : State} {as : List ReadAnswer} {park : Byte} {rest : List Byte}
    {reads : List ReadAnswer} (hlen : as.length = readsOf s.cfg c (s.dev.ready c))
    (hw : s.env.writeAnswers = chipAnswers (s.dev.ready c) as.length park ++ rest)
    (hr : s.env.readAnswers = as ++ reads) :
    Samples s (scanChip c s) (s.cfg.colOffset c) (as.map (sampled s.cfg))
      (chipEvents s.cfg c (s.dev.ready c) as park) rest reads := by
  by_cases hready : s.dev.ready c = true
  · rw [hready] at hlen hw ⊢
    obtain ⟨acts, raw, writes, reads_eq⟩ := scanColumns_samples c 0 (hw.trans (List.append_assoc _ _ _)) hr
    rw [scanChip, if_pos hready, List.range_eq_range', show s.cfg.colsOf c = as.length from hlen.symm]
    have parked := park_acts c as.length ((List.range' 0 as.length).foldl (scanColumn c) s)
    rw [nextStatus_of_cons writes, scanColumns_cfg] at parked
    exact ⟨acts.trans parked (by simp), by simpa [Params.colIndex] using raw, by simp [parkWrite, writes],
      by simp [parkWrite, drvWriteByte, busWrite_env, reads_eq]⟩
  · rw [scanChip_of_not_ready hready]
    rw [Bool.not_eq_true] at hready
    rw [hready] at hlen hw ⊢
    rw [List.length_eq_zero_iff.mp hlen] at hr ⊢
    exact ⟨.refl s, rfl, hw, hr⟩

/-! ### The whole scan -/

theorem zeroSnap_eq (p : Params) :
    p.zeroSnap = List.replicate (p.colsOf .chip0) 0#8 ++ (List.replicate (p.colsOf .chip1) 0#8 ++ []) := by
  rw [List.append_nil, List.replicate_append_replicate]
  rfl

theorem readsOf_le (p : Params) (c : Chip) (ready : Bool) : readsOf p c ready ≤ p.colsOf c := by
  cases ready with
  | true => exact le_rfl
  | false => exact Nat.zero_le _

theorem length_chipRaw {p : Params} {c : Chip} {ready : Bool} {as : List ReadAnswer}
    (h : as.length = readsOf p c ready) : (chipRaw p c ready as).length = p.colsOf c := by
  cases ready with
  | true => simpa [chipRaw, readsOf] using h
  | false => simp [chipRaw]

/-- Both chips' bytes stored over an all-zero RAW make up the whole of it (R10). -/
theorem storeFrom_zeroSnap {p : Params} {ready0 ready1 : Bool} {as0 as1 : List ReadAnswer}
    (h0 : as0.length = readsOf p .chip0 ready0) (h1 : as1.length = readsOf p .chip1 ready1) :
    storeFrom (p.colOffset .chip1) (as1.map (sampled p))
        (storeFrom (p.colOffset .chip0) (as0.map (sampled p)) p.zeroSnap) =
      chipRaw p .chip0 ready0 as0 ++ chipRaw p .chip1 ready1 as1 := by
  have first := storeFrom_chip h0 [] (List.replicate (p.colsOf .chip1) 0#8 ++ [])
  have second := storeFrom_chip h1 (chipRaw p .chip0 ready0 as0) []
  rw [length_chipRaw h0] at second
  rw [zeroSnap_eq]
  exact (congrArg _ first).trans (second.trans (by rw [List.append_nil]))

@[simp] theorem beginScan_writeAnswers (s : State) : (beginScan s).env.writeAnswers = s.env.writeAnswers := by
  simp [beginScan]

@[simp] theorem beginScan_readAnswers (s : State) : (beginScan s).env.readAnswers = s.env.readAnswers := by
  simp [beginScan]

@[simp] theorem beginScan_ready (c : Chip) (s : State) : (beginScan s).dev.ready c = s.dev.ready c := by
  cases c <;> simp [DevRegs.ready]

/-- SCAN when every select and register-select write is answered 0 and the park writes are answered anyhow. -/
theorem exec_scan_of_answers {s : State} {as0 as1 : List ReadAnswer} {park0 park1 : Byte} {rest : List Byte}
    {reads : List ReadAnswer} (hlen0 : as0.length = readsOf s.cfg .chip0 s.dev.ready0)
    (hlen1 : as1.length = readsOf s.cfg .chip1 s.dev.ready1)
    (hw : s.env.writeAnswers =
      chipAnswers s.dev.ready0 as0.length park0 ++ (chipAnswers s.dev.ready1 as1.length park1 ++ rest))
    (hr : s.env.readAnswers = as0 ++ (as1 ++ reads)) :
    ∃ t, exec .scan s = .next t ∧
      t.snap.raw = chipRaw s.cfg .chip0 s.dev.ready0 as0 ++ chipRaw s.cfg .chip1 s.dev.ready1 as1 ∧
      t.dev = { s.dev with irqEn := s.dev.initialized } ∧ t.env.writeAnswers = rest ∧ t.env.readAnswers = reads ∧
      t.port = ⟨0x00#8, []⟩ ∧
      Grows s t
        (chipEvents s.cfg .chip0 s.dev.ready0 as0 park0 ++ chipEvents s.cfg .chip1 s.dev.ready1 as1 park1) := by
  have chip0 := scanChip_samples (c := .chip0) (s := beginScan s) (as := as0) (park := park0)
    (by rw [beginScan_ready, beginScan_cfg]; exact hlen0)
    (by rw [beginScan_ready]; exact (beginScan_writeAnswers s).trans hw)
    ((beginScan_readAnswers s).trans hr)
  have chip1 := scanChip_samples (c := .chip1) (s := scanChip .chip0 (beginScan s)) (as := as1) (park := park1)
    (by rw [scanChip_dev, beginScan_ready, scanChip_cfg, beginScan_cfg]; exact hlen1)
    (by rw [scanChip_dev, beginScan_ready]; exact chip0.writes_eq) chip0.reads_eq
  rw [scanChip_dev, scanChip_cfg, beginScan_ready, beginScan_cfg] at chip1
  rw [beginScan_ready, beginScan_cfg] at chip0
  have raw : (scanBody s).snap.raw =
      chipRaw s.cfg .chip0 s.dev.ready0 as0 ++ chipRaw s.cfg .chip1 s.dev.ready1 as1 := by
    simp only [scanBody, endScan_snap, chip1.raw, chip0.raw, beginScan_raw]
    exact storeFrom_zeroSnap hlen0 hlen1
  have acts := (((beginScan_acts s).trans chip0.acts (by simp)).trans chip1.acts (by simp)).trans
    (endScan_acts _) (by simp)
  rw [List.nil_append, List.append_nil] at acts
  exact ⟨_, rfl, raw, by simp, by simp [scanBody, endScan, chip1.writes_eq],
    by simp [scanBody, endScan, chip1.reads_eq], rfl, (acts.setPort _).grows⟩

end Sys2Proof.Machine
end

section
/-! PROOFS. The matrix scanner (spec/41_matrix_scanner.md): what a SCAN drives, samples, stores and leaves alone. -/

namespace Sys2Proof.Machine

open Sys2Proof.Claims

/-- Settles O21: the select byte bit by bit, and the column-port writes a scan makes. -/
theorem columnSelectIsActiveLow : Obligations.ColumnSelectIsActiveLow := by
  refine ⟨fun i b => colSelect_getLsbD, by decide, by decide, by decide, fun c i s => ?_, fun s => ?_⟩
  · rw [← colSelect_eq_xor]
    exact (selectWrite_acts c i s).grows
  · obtain ⟨more, htrace, hwrites⟩ := (scanBody_scanWrites s).trace
    refine ⟨_, more, rfl, htrace, fun a reg val st he => ?_⟩
    obtain ⟨c, haddr, hreg, hval⟩ := hwrites _ he rfl a reg val st rfl
    exact ⟨c, haddr, hreg, hval.imp_right fun ⟨i, hi, hsel⟩ => ⟨i, hi, hsel.trans (colSelect_eq_xor i)⟩⟩

/-- Settles O22: every operation of a scan leaves these registers alone, and RAW is well-formed at its end. -/
theorem scanWritesOnlyRawAndBracket : Obligations.ScanWritesOnlyRawAndBracket := by
  intro s
  have actsSome := scanBody_actsSome s
  have inputs : (scanBody s).env.inputs = s.env.inputs :=
    let ⟨_, acts⟩ := actsSome
    acts.inputs
  have snap : (scanBody s).snap = { s.snap with raw := (scanBody s).snap.raw } := by
    rw [SnapRegs.mk.injEq]
    exact ⟨rfl, scanBody_snap_hist s, scanBody_snap_stable s, scanBody_snap_stablePrev s, scanBody_snap_pending s⟩
  exact ⟨_, rfl, scanBody_cfg s, scanBody_raw_ok s, snap, scanBody_layer s, scanBody_report s, scanBody_dev s,
    actsSome.wakeMoves, rfl, scanBody_scanState s, scanBody_seq_pipePhase s, scanBody_seq_passCount s, inputs,
    scanBody_sendAnswers s⟩

/-- Settles O23: a ready chip takes two zero answers a column and one for its park write, another chip none. -/
theorem scanSamplesReadyChipsInOrder : Obligations.ScanSamplesReadyChipsInOrder := by
  intro s hzero hwrites hreads n0 n1 a0 a1
  have hn0 : n0 ≤ s.cfg.colsOf .chip0 := readsOf_le _ _ _
  have hn1 : n1 ≤ s.cfg.colsOf .chip1 := readsOf_le _ _ _
  have hcols : s.cfg.cols = s.cfg.colsOf .chip0 + s.cfg.colsOf .chip1 := rfl
  have hlen0 : a0.length = n0 := by simp only [a0, List.length_take]; omega
  have hlen1 : a1.length = n1 := by simp only [a1, List.length_take, List.length_drop]; omega
  have zeros (ready : Bool) (n : Nat) :
      chipAnswers ready n 0#8 = List.replicate (if ready then 2 * n + 1 else 0) 0#8 := by
    cases ready
    · rfl
    · exact List.replicate_succ'.symm
  have answers : s.env.writeAnswers =
      chipAnswers s.dev.ready0 a0.length 0#8 ++ (chipAnswers s.dev.ready1 a1.length 0#8 ++
        List.replicate (s.env.writeAnswers.length - (if s.dev.ready0 then 2 * a0.length + 1 else 0) -
          (if s.dev.ready1 then 2 * a1.length + 1 else 0)) 0#8) := by
    rw [zeros, zeros, List.replicate_append_replicate, List.replicate_append_replicate]
    refine List.eq_replicate_iff.mpr ⟨?_, hzero⟩
    split <;> split <;> omega
  have reads : s.env.readAnswers = a0 ++ (a1 ++ s.env.readAnswers.drop (n0 + n1)) := by
    rw [← List.drop_drop, List.take_append_drop, List.take_append_drop]
  obtain ⟨t, hexec, hraw, -, -, hreads', -, hgrows⟩ := exec_scan_of_answers hlen0 hlen1 answers reads
  exact ⟨t, hexec, hraw, hgrows, hreads'⟩

/-- Settles O60: a chip's park write takes its answer, whatever it is, and the scan goes on. -/
theorem failedParkWriteIsIgnored : Obligations.FailedParkWriteIsIgnored := by
  intro s park0 park1 rest hready0 hready1 hwrites hreads a0 a1
  have hcols : s.cfg.cols = s.cfg.colsOf .chip0 + s.cfg.colsOf .chip1 := rfl
  have hlen0 : a0.length = s.cfg.colsOf .chip0 := by simp only [a0, List.length_take]; omega
  have hlen1 : a1.length = s.cfg.colsOf .chip1 := by simp only [a1, List.length_take, List.length_drop]; omega
  have reads : s.env.readAnswers =
      a0 ++ (a1 ++ (s.env.readAnswers.drop (s.cfg.colsOf .chip0)).drop (s.cfg.colsOf .chip1)) := by
    rw [List.take_append_drop, List.take_append_drop]
  obtain ⟨t, hexec, hraw, hdev, hwrites', -, hport, hgrows⟩ :=
    exec_scan_of_answers (park0 := park0) (park1 := park1) (rest := rest) (by rw [hready0]; exact hlen0)
      (by rw [hready1]; exact hlen1) (by simp [chipAnswers, hready0, hready1, hlen0, hlen1, hwrites]) reads
  rw [hready0, hready1] at hraw hgrows
  exact ⟨t, hexec, hraw, hdev, hwrites', hport, hgrows⟩

/-- Settles O24: the three ways in which a column's bus calls fail; a failed read is sampled as 0x00. -/
theorem failedBusCallZeroesItsColumn : Obligations.FailedBusCallZeroesItsColumn := by
  intro c i s
  refine ⟨scanColumn_dev c s i, fun hselect => ?_, fun hselect haddress => ?_, fun hselect haddress hread => ?_⟩
  · obtain ⟨snap, acts⟩ := scanColumn_effect_of_not_selected hselect c i
    exact ⟨snap, acts.grows⟩
  · obtain ⟨snap, acts⟩ := scanColumn_effect_of_not_addressed hselect haddress c i
    exact ⟨snap, acts.grows⟩
  · have snap := (scanColumn_effect_of_read hselect haddress c i).snap
    rwa [sampled, if_neg hread] at snap

/-- No edge at an interleaving point that is masked or where none falls is taken (R266). -/
theorem interleave_takes_none {s : State} (h : s.dev.irqEn = false ∨ s.env.edges.headD 0 = 0) :
    (interleave s).wake = s.wake ∧
      ∃ more, (interleave s).trace = s.trace ++ more ∧ ∀ e ∈ more, e ≠ .irq .taken := by
  cases hedges : s.env.edges with
  | nil => rw [interleave_of_no_edges s hedges]; exact ⟨rfl, [], by simp⟩
  | cons n rest =>
    obtain ⟨hwake, htrace⟩ := interleave_of_edges hedges
    rw [hedges, List.headD_cons] at h
    refine ⟨?_, _, htrace, ?_⟩
    · rw [hwake]
      obtain hmask | rfl := h
      · simp [wakeAfter, hmask]
      · simp [wakeAfter]
    · obtain hmask | rfl := h
      · simp [edgeEvents, hmask]
      · simp [edgeEvents]

/-- Settles O25: no edge is taken before `IRQ_EN <- 0` by the premise, and none after it since it is masked. -/
theorem scanTakesNoEdge : Obligations.ScanTakesNoEdge := by
  intro i s hi hedge
  obtain ⟨hwake, first, htrace, hnone⟩ := interleave_takes_none hedge
  have masked : (execBody i s).wake = (interleave s).wake ∧
      ∃ more, (execBody i s).trace = (interleave s).trace ++ more ∧ ∀ e ∈ more, e ≠ .irq .taken := by
    obtain rfl | rfl := hi
    · exact (beginScan_actsSome_scanBody s).of_masked (by simp)
    · exact (setIrqEn_actsSome_initBody s).of_masked (by simp)
  obtain ⟨hwake', later, htrace', hnone'⟩ := masked
  obtain ⟨v, hexec⟩ := exec_eq_execBody i s
  refine ⟨_, first ++ later, hexec, ?_, ?_, hwake'.trans hwake⟩
  · rw [State.setPort_trace, htrace', htrace, List.append_assoc]
  · exact fun e he => (List.mem_append.mp he).elim (hnone e) (hnone' e)

end Sys2Proof.Machine
end

section
/-! SUPPORT. A filter step (spec/42_debounce_filter.md R182 to R185): what it does to the delay line, and when the taps
agree on a bit, which is all that can change that bit of STABLE. -/

namespace Sys2Proof.Machine

open Sys2Proof.Claims

/-! ### The length of the delay line (R32) -/

theorem histLen_of_settleConfirm {p : Params} (h : p.policy = .settleConfirm) : p.histLen = 1 := by
  rw [Params.histLen, h]

theorem histLen_add_one_of_nofn {p : Params} (h : p.policy = .nofn) : p.histLen + 1 = p.k := by
  rw [Params.histLen, h, Params.k]
  cases p.depth <;> rfl

theorem histLen_pos (p : Params) : 0 < p.histLen := by
  cases h : p.policy with
  | settleConfirm => rw [histLen_of_settleConfirm h]; exact Nat.one_pos
  | nofn =>
    have hk : 2 ≤ p.k := by unfold Params.k; cases p.depth <;> decide
    have hlen := histLen_add_one_of_nofn h
    omega

/-! ### The shift of the delay line (R184) -/

theorem histAt_cons_succ (x : Snapshot) (l : List Snapshot) {j : Nat} (hj : 1 ≤ j) :
    histAt (x :: l) (j + 1) = histAt l j := by
  obtain ⟨i, rfl⟩ := Nat.exists_eq_add_of_le' hj
  rfl

theorem histAt_shiftHist (raw : Snapshot) (hist : List Snapshot) {h j : Nat} (hj : 1 ≤ j) (hjh : j ≤ h) :
    histAt (shiftHist h raw hist) j = histAt (raw :: hist) j := by
  have hlt : j - 1 < h := by omega
  rw [histAt, histAt, shiftHist, List.getD_eq_getElem?_getD, List.getElem?_take_of_lt hlt,
    ← List.getD_eq_getElem?_getD]

theorem length_shiftHist_le (h : Nat) (raw : Snapshot) (hist : List Snapshot) :
    (shiftHist h raw hist).length ≤ h :=
  List.length_take_le h (raw :: hist)

theorem histAt_filterRegs_one (p : Params) (r : SnapRegs) : histAt (filterRegs p r).hist 1 = r.raw :=
  histAt_shiftHist r.raw r.hist (Nat.le_refl 1) (histLen_pos p)

theorem histAt_filterRegs_succ {p : Params} (r : SnapRegs) {j : Nat} (hj : 1 ≤ j) (hjh : j < p.histLen) :
    histAt (filterRegs p r).hist (j + 1) = histAt r.hist j := by
  rw [← histAt_cons_succ r.raw r.hist hj]
  exact histAt_shiftHist r.raw r.hist (Nat.le_add_left 1 j) hjh

/-! ### STABLE and PENDING after a step -/

theorem filterRegs_pending_iff (p : Params) (r : SnapRegs) :
    (filterRegs p r).pending = true ↔ (filterRegs p r).stable ≠ (filterRegs p r).raw :=
  decide_eq_true_iff

theorem filterRegs_stable_of_settleConfirm {p : Params} (h : p.policy = .settleConfirm) (r : SnapRegs) :
    (filterRegs p r).stable = if r.raw = histAt r.hist 1 then r.raw else r.stable := by
  rw [filterRegs, nextStable, h, settleStable]

theorem filterRegs_stable_of_nofn {p : Params} (h : p.policy = .nofn) (r : SnapRegs) :
    (filterRegs p r).stable = nofnStable p r := by
  rw [filterRegs, nextStable, h]

/-! ### When the taps agree on a bit (R184) -/

/-- RAW and `HIST[1] .. HIST[h]` all hold the bit at `b`. -/
def TapsAgree (h : Nat) (r : SnapRegs) (c row : Nat) (b : Bool) : Prop :=
  bitAt r.raw c row = b ∧ ∀ j, 1 ≤ j → j ≤ h → bitAt (histAt r.hist j) c row = b

theorem rowMask_getLsbD (p : Params) {row : Nat} (hrow : row < 8) : p.rowMask.getLsbD row = decide (row < p.rows) := by
  unfold Params.rowMask
  by_cases hrows : p.rows < 8
  · have hpow : 2 ^ p.rows < 2 ^ 8 := Nat.pow_lt_pow_right (by decide) hrows
    have hpos : 0 < 2 ^ p.rows := Nat.two_pow_pos _
    have hval : (1#8 <<< p.rows - 1#8).toNat = 2 ^ p.rows - 1 := by
      rw [BitVec.toNat_sub, BitVec.toNat_shiftLeft, Nat.shiftLeft_eq, BitVec.toNat_one (by decide), Nat.one_mul]
      omega
    rw [← BitVec.testBit_toNat, hval, Nat.testBit_two_pow_sub_one]
  · rw [BitVec.shiftLeft_eq_zero (Nat.le_of_not_lt hrows)]
    have hall : (0#8 - 1#8) = BitVec.allOnes 8 := by decide
    rw [hall, BitVec.getLsbD_allOnes]
    simp only [hrow, decide_true]
    exact (decide_eq_true (by omega)).symm

/-- A bit survives the conjunction over the taps exactly when the start and every tap hold it. -/
theorem foldl_and_getLsbD_iff (f : Nat → Byte) (v : Byte) (h row : Nat) :
    ((List.range h).foldl (fun a j => a &&& f (j + 1)) v).getLsbD row = true ↔
      v.getLsbD row = true ∧ ∀ j, 1 ≤ j → j ≤ h → (f j).getLsbD row = true := by
  induction h with
  | zero => exact ⟨fun hv => ⟨hv, fun j _ _ => by omega⟩, And.left⟩
  | succ h ih =>
    rw [List.range_succ, List.foldl_append, List.foldl_cons, List.foldl_nil, BitVec.getLsbD_and, Bool.and_eq_true, ih]
    constructor
    · rintro ⟨⟨hv, hbelow⟩, hlast⟩
      refine ⟨hv, fun j hj hjh => ?_⟩
      obtain hlt | rfl := Nat.lt_or_eq_of_le hjh
      · exact hbelow j hj (Nat.le_of_lt_succ hlt)
      · exact hlast
    · rintro ⟨hv, hall⟩
      exact ⟨⟨hv, fun j hj hjh => hall j hj (Nat.le_succ_of_le hjh)⟩, hall _ (Nat.le_add_left 1 h) (Nat.le_refl _)⟩

theorem agreeOne_getLsbD_iff (h : Nat) (r : SnapRegs) (c row : Nat) :
    (agreeOne h r c).getLsbD row = true ↔ TapsAgree h r c row true :=
  foldl_and_getLsbD_iff (fun j => snapAt (histAt r.hist j) c) (snapAt r.raw c) h row

theorem agreeZero_getLsbD_iff (p : Params) (h : Nat) (r : SnapRegs) (c : Nat) {row : Nat} (hrow : row < 8) :
    (agreeZero p.rowMask h r c).getLsbD row = true ↔ row < p.rows ∧ TapsAgree h r c row false := by
  have hfold := foldl_and_getLsbD_iff (fun j => ~~~ snapAt (histAt r.hist j) c) (~~~ snapAt r.raw c &&& p.rowMask) h row
  simp only [BitVec.getLsbD_and, BitVec.getLsbD_not, hrow, decide_true, Bool.true_and, rowMask_getLsbD p hrow,
    Bool.and_eq_true, Bool.not_eq_true', decide_eq_true_iff] at hfold
  rw [agreeZero, hfold, and_comm (b := row < p.rows), and_assoc]
  rfl

theorem bitAt_nofnStable {p : Params} (r : SnapRegs) {c row : Nat} (hc : c < p.cols) (hrow : row < 8) :
    bitAt (nofnStable p r) c row = ((bitAt r.stable c row || (agreeOne p.histLen r c).getLsbD row) &&
      !(agreeZero p.rowMask p.histLen r c).getLsbD row) := by
  have hcol : snapAt (nofnStable p r) c =
      (snapAt r.stable c ||| agreeOne p.histLen r c) &&& ~~~ agreeZero p.rowMask p.histLen r c := by
    simp [snapAt, nofnStable, hc]
  rw [bitAt, hcol, BitVec.getLsbD_and, BitVec.getLsbD_or, BitVec.getLsbD_not, decide_eq_true hrow, Bool.true_and, bitAt]

theorem TapsAgree.not_of_ne {h : Nat} {r : SnapRegs} {c row : Nat} {a b : Bool} (hab : a ≠ b)
    (ha : TapsAgree h r c row a) : ¬ TapsAgree h r c row b := by
  obtain ⟨hraw, -⟩ := ha
  exact fun ⟨hraw', _⟩ => hab (hraw.symm.trans hraw')

theorem nofnStable_of_ones {p : Params} {r : SnapRegs} {c row : Nat} (hc : c < p.cols) (hrow : row < 8)
    (ones : TapsAgree p.histLen r c row true) : bitAt (nofnStable p r) c row = true := by
  have hone := (agreeOne_getLsbD_iff ..).mpr ones
  have hzero : (agreeZero p.rowMask p.histLen r c).getLsbD row = false :=
    Bool.eq_false_iff.mpr fun hz =>
      ones.not_of_ne (by decide) ((agreeZero_getLsbD_iff p p.histLen r c hrow).mp hz).2
  rw [bitAt_nofnStable r hc hrow, hone, hzero, Bool.or_true]
  rfl

theorem nofnStable_of_zeros {p : Params} {r : SnapRegs} {c row : Nat} (hc : c < p.cols) (hrow : row < 8)
    (hrows : row < p.rows) (zeros : TapsAgree p.histLen r c row false) : bitAt (nofnStable p r) c row = false := by
  rw [bitAt_nofnStable r hc hrow, (agreeZero_getLsbD_iff p p.histLen r c hrow).mpr ⟨hrows, zeros⟩]
  exact Bool.and_false _

theorem nofnStable_of_disagreement {p : Params} {r : SnapRegs} {c row : Nat} (hc : c < p.cols) (hrow : row < 8)
    (hones : ¬ TapsAgree p.histLen r c row true) (hzeros : ¬ (row < p.rows ∧ TapsAgree p.histLen r c row false)) :
    bitAt (nofnStable p r) c row = bitAt r.stable c row := by
  rw [← agreeOne_getLsbD_iff, Bool.not_eq_true] at hones
  rw [← agreeZero_getLsbD_iff p p.histLen r c hrow, Bool.not_eq_true] at hzeros
  rw [bitAt_nofnStable r hc hrow, hones, hzeros, Bool.or_false]
  exact Bool.and_true _

/-- Either policy changes a bit of STABLE only to a value the taps agree on (R186). -/
theorem tapsAgree_of_stable_changes {p : Params} {r : SnapRegs} {c row : Nat} (hc : c < p.cols) (hrow : row < 8)
    (hchange : bitAt (filterRegs p r).stable c row ≠ bitAt r.stable c row) :
    TapsAgree p.histLen r c row (bitAt (filterRegs p r).stable c row) := by
  cases hpolicy : p.policy with
  | settleConfirm =>
    rw [filterRegs_stable_of_settleConfirm hpolicy] at hchange ⊢
    split at hchange
    next heq =>
      rw [if_pos heq, histLen_of_settleConfirm hpolicy]
      refine ⟨rfl, fun j hj hjh => ?_⟩
      rw [Nat.le_antisymm hjh hj, ← heq]
    next => exact absurd rfl hchange
  | nofn =>
    rw [filterRegs_stable_of_nofn hpolicy] at hchange ⊢
    by_cases hones : TapsAgree p.histLen r c row true
    · rwa [nofnStable_of_ones hc hrow hones]
    · by_cases hzeros : row < p.rows ∧ TapsAgree p.histLen r c row false
      · obtain ⟨hrows, zeros⟩ := hzeros
        rwa [nofnStable_of_zeros hc hrow hrows zeros]
      · exact absurd (nofnStable_of_disagreement hc hrow hones hzeros) hchange

/-! ### Runs of filter steps -/

theorem feed_concat (p : Params) (g : SnapRegs) (xs : List Snapshot) (x : Snapshot) :
    feed p g (xs ++ [x]) = filterRegs p { feed p g xs with raw := x } :=
  List.foldl_concat ..

/-- The delay line after a run: its reads, the last first, before what it held. -/
theorem histAt_feed (p : Params) (g : SnapRegs) (xs : List Snapshot) {j : Nat} (hj : 1 ≤ j) (hjh : j ≤ p.histLen) :
    histAt (feed p g xs).hist j = histAt (xs.reverse ++ g.hist) j := by
  induction xs using List.reverseRecOn generalizing j with
  | nil => rfl
  | append_singleton xs x ih =>
    rw [feed_concat, List.reverse_concat, List.cons_append]
    obtain rfl | hlt := Nat.eq_or_lt_of_le hj
    · exact histAt_filterRegs_one p _
    · obtain ⟨i, rfl⟩ := Nat.exists_eq_add_of_lt hlt
      rw [Nat.add_comm 1 i, histAt_cons_succ x _ (Nat.le_add_left 1 i), ← ih (Nat.le_add_left 1 i) (by omega)]
      exact histAt_filterRegs_succ _ (Nat.le_add_left 1 i) (by omega)

theorem forall_mem_take_iff_histAt {P : Snapshot → Prop} {l : List Snapshot} (m : List Snapshot) {h : Nat}
    (hl : h ≤ l.length) : (∀ y ∈ l.take h, P y) ↔ ∀ j, 1 ≤ j → j ≤ h → P (histAt (l ++ m) j) := by
  have hat {i : Nat} (hi : i < l.length) : histAt (l ++ m) (i + 1) = l[i] := by
    simp [histAt, List.getElem?_append_left, hi]
  constructor
  · intro hall j hj hjh
    obtain ⟨i, rfl⟩ := Nat.exists_eq_add_of_le' hj
    rw [hat (by omega)]
    exact hall _ (List.mem_take_iff_getElem.mpr ⟨i, by omega, rfl⟩)
  · intro hall y hy
    obtain ⟨i, hi, rfl⟩ := List.mem_take_iff_getElem.mp hy
    rw [← hat (by omega)]
    exact hall _ (Nat.le_add_left 1 i) (by omega)

/-- Once a run has filled the delay line, the taps of its last step are its last `H + 1` reads. -/
theorem tapsAgree_feed_iff {p : Params} (g : SnapRegs) {xs : List Snapshot} (x : Snapshot) (c row : Nat) (b : Bool)
    (hfull : p.histLen ≤ xs.length) :
    TapsAgree p.histLen { feed p g xs with raw := x } c row b ↔
      ∀ y ∈ (xs ++ [x]).drop (xs.length - p.histLen), bitAt y c row = b := by
  have hlast : xs.reverse.take p.histLen = (xs.drop (xs.length - p.histLen)).reverse := List.take_reverse
  have htaps := forall_mem_take_iff_histAt (P := fun y => bitAt y c row = b) g.hist
    (hfull.trans_eq List.length_reverse.symm)
  rw [hlast] at htaps
  rw [List.drop_append_of_le_length (Nat.sub_le ..), List.forall_mem_append, List.forall_mem_singleton, and_comm]
  simp only [List.mem_reverse] at htaps
  refine and_congr Iff.rfl (Iff.trans ?_ htaps.symm)
  exact forall_congr' fun j => forall_congr' fun hj => forall_congr' fun hjh => by rw [histAt_feed p g xs hj hjh]

end Sys2Proof.Machine
end

section
/-! PROOFS. The debounce filter (spec/42_debounce_filter.md): what FILTER writes, when a bit of STABLE changes, what
RAWSET writes. -/

namespace Sys2Proof.Machine

open Sys2Proof.Claims

theorem exec_filter (s : State) :
    exec .filter s = .next ((s.setSnap (filterRegs s.cfg s.snap)).setPort ⟨0x00#8, []⟩) := rfl

/-- Settles O33: a changed bit is one the taps agree on, and the taps are the last reads of the run. -/
theorem shortExcursionNeverReachesStable : Obligations.ShortExcursionNeverReachesStable := by
  intro p g xs x c r hdepth hc hr hchange
  have hfull : p.histLen ≤ xs.length := Nat.le_of_succ_le_succ hdepth
  have hdrop : xs.length + 1 - p.confirmDepth = xs.length - p.histLen := Nat.add_sub_add_right ..
  rw [feed_concat] at hchange ⊢
  rw [hdrop]
  exact (tapsAgree_feed_iff g x c r _ hfull).mp (tapsAgree_of_stable_changes hc hr hchange)

/-- Settles O34: the taps of the last of `K` steps are the `K` reads. -/
theorem heldBitIsConfirmedUnderNofN : Obligations.HeldBitIsConfirmedUnderNofN := by
  intro p g xs c r v hpolicy hlen hc hr hrows hheld
  have hk := histLen_add_one_of_nofn hpolicy
  obtain rfl | ⟨ys, x, rfl⟩ := List.eq_nil_or_concat' xs
  · rw [List.length_nil] at hlen
    omega
  rw [List.length_append, List.length_singleton] at hlen
  have agree : TapsAgree p.histLen { feed p g ys with raw := x } c r v :=
    (tapsAgree_feed_iff g x c r v (by omega)).mpr fun y hy => hheld y (List.mem_of_mem_drop hy)
  rw [feed_concat, filterRegs_stable_of_nofn hpolicy]
  cases v with
  | true => exact nofnStable_of_ones hc hr agree
  | false => exact nofnStable_of_zeros hc hr hrows agree

/-- Settles O30: the shift is one of a list cut to the delay line's length. -/
theorem filterShiftsAndFlags : Obligations.FilterShiftsAndFlags := by
  intro s
  exact ⟨_, exec_filter s, rfl, rfl, rfl, histAt_filterRegs_one s.cfg s.snap,
    fun j hj hjh => histAt_filterRegs_succ s.snap hj hjh, length_shiftHist_le s.cfg.histLen s.snap.raw s.snap.hist,
    filterRegs_pending_iff s.cfg s.snap⟩

/-- Settles O31, by the two branches of the settle-and-confirm step. -/
theorem settleConfirmNeedsTwoEqualReads : Obligations.SettleConfirmNeedsTwoEqualReads := by
  intro s hpolicy
  have hstable := filterRegs_stable_of_settleConfirm hpolicy s.snap
  exact ⟨_, exec_filter s, fun heq => hstable.trans (if_pos heq), fun hne => hstable.trans (if_neg hne),
    histAt_filterRegs_one s.cfg s.snap, rfl⟩

/-- Settles O32: the three ways a bit can go, by the agreement of its taps. -/
theorem nofNAcceptsAgreedBits : Obligations.NofNAcceptsAgreedBits := by
  intro s hpolicy
  have hk := histLen_add_one_of_nofn hpolicy
  refine ⟨_, exec_filter s, histAt_filterRegs_one s.cfg s.snap,
    fun j hj hjk => histAt_filterRegs_succ s.snap hj (by omega), fun c r hc hr => ?_⟩
  have htaps (b : Bool) : TapsAgree s.cfg.histLen s.snap c r b ↔ bitAt s.snap.raw c r = b ∧
      ∀ j, 1 ≤ j → j < s.cfg.k → bitAt (histAt s.snap.hist j) c r = b := by
    simp only [TapsAgree, ← hk, Nat.lt_succ_iff]
  simp only [← htaps, State.setPort_snap, State.setSnap_snap, filterRegs_stable_of_nofn hpolicy]
  exact ⟨nofnStable_of_ones hc hr, fun ⟨hrows, zeros⟩ => nofnStable_of_zeros hc hr hrows zeros,
    nofnStable_of_disagreement hc hr⟩

/-! ### RAWSET (R187) -/

theorem snapAt_set_self {t : Snapshot} {c : Nat} (h : c < t.length) (v : Byte) : snapAt (t.set c v) c = v := by
  simp [snapAt, h]

theorem snapAt_set_of_ne (t : Snapshot) {c d : Nat} (h : d ≠ c) (v : Byte) : snapAt (t.set c v) d = snapAt t d := by
  simp [snapAt, List.getElem?_set_ne h.symm]

theorem wf_rawset_iff (p : Params) (col : BitVec 4) (val : Byte) :
    (Instr.rawset col val).wf p = true ↔ col.toNat < p.cols ∧ val &&& ~~~ p.rowMask = 0#8 := by
  simp [Instr.wf]

theorem exec_rawset_of_wf {s : State} {col : BitVec 4} {val : Byte} (h : (Instr.rawset col val).wf s.cfg = true) :
    exec (.rawset col val) s =
      .next ((s.setSnap { s.snap with raw := s.snap.raw.set col.toNat val }).setPort ⟨0x00#8, []⟩) :=
  congrArg Host.Outcome.next (if_pos ((wf_rawset_iff s.cfg col val).mp h))

/-- Settles O35: in range, RAWSET is one list update of RAW. -/
theorem rawsetWritesOneElement : Obligations.RawsetWritesOneElement := by
  intro col val s hwf hraw
  obtain ⟨hlt, -⟩ := (wf_rawset_iff s.cfg col val).mp hwf
  have hcol : col.toNat < s.snap.raw.length := hraw ▸ hlt
  exact ⟨_, exec_rawset_of_wf hwf, rfl, rfl, List.length_set.trans hraw, snapAt_set_self hcol val,
    fun c hne => snapAt_set_of_ne s.snap.raw hne val⟩

end Sys2Proof.Machine
end

section
/-! SUPPORT. The dispatch of one Key Event (spec/44_keymap_dispatcher.md R216 to R222): a move of LAYER, an ACT event,
or an update of the report. What follows from that: it adds no KEY event, reads neither STATUS nor RESULT, and what it
does to LAYER and the report depends on these and the parameters alone. -/

namespace Sys2Proof.Machine

open Sys2Proof.Claims

/-! ### The three ways of a Key Event -/

theorem addKey_zero (s : State) : addKey 0#8 s = s := rfl

theorem removeKey_zero (s : State) : removeKey 0#8 s = s := rfl

/-- A press adds the current layer's keycode; keycode 0 adds nothing (R221). -/
theorem pressKey_eq_addKey (row col : Nat) (s : State) :
    pressKey row col s = addKey (s.cfg.keymapAt s.layer row col) s := by
  by_cases hcode : s.cfg.keymapAt s.layer row col = 0#8 <;> simp [pressKey, hcode, addKey_zero]

theorem releaseOnLayer_eq_removeKey (row col : Nat) (s : State) (l : Nat) :
    releaseOnLayer row col s l = removeKey (s.cfg.keymapAt l row col) s := by
  by_cases hcode : s.cfg.keymapAt l row col = 0#8 <;> simp [releaseOnLayer, hcode, removeKey_zero]

/-- The report after a release: each layer's keycode removed, in ascending order (R222). -/
def releaseReport (p : Params) (row col : Nat) (r : Report) : Report :=
  (List.range p.layers).foldl (fun r l => removeKeyReport p (p.keymapAt l row col) r) r

/-- The release path over any layers is one update of the report. -/
theorem foldl_releaseOnLayer (row col : Nat) (l : List Nat) (s : State) :
    l.foldl (releaseOnLayer row col) s =
      s.setReport (l.foldl (fun r l => removeKeyReport s.cfg (s.cfg.keymapAt l row col) r) s.report) := by
  induction l generalizing s with
  | nil => rfl
  | cons i l ih => rw [List.foldl_cons, releaseOnLayer_eq_removeKey, ih]; rfl

theorem releaseKey_eq_setReport (row col : Nat) (s : State) :
    releaseKey row col s = s.setReport (releaseReport s.cfg row col s.report) :=
  foldl_releaseOnLayer row col _ s

/-- The report after a Key Event that no function key consumes (R221, R222). -/
def keyReport (p : Params) (layer row col : Nat) (pressed : Bool) (r : Report) : Report :=
  if pressed then addKeyReport p (p.keymapAt layer row col) r else releaseReport p row col r

theorem dispatchEvent_of_layerSwitch {s : State} {row col : Nat} {e : FkEntry} (h : s.cfg.fkFind row col = some e)
    (ha : e.action = .layerSwitch) (pressed : Bool) : dispatchEvent row col pressed s = layerSwitch pressed s := by
  simp [dispatchEvent, h, invokeAction, ha]

theorem dispatchEvent_of_other {s : State} {row col : Nat} {e : FkEntry} {id : Byte}
    (h : s.cfg.fkFind row col = some e) (ha : e.action = .other id) (pressed : Bool) :
    dispatchEvent row col pressed s = emit (.act id (if pressed then .actBegin else .actEnd)) s := by
  simp [dispatchEvent, h, invokeAction, ha, otherAction]

theorem dispatchEvent_of_none {s : State} {row col : Nat} (h : s.cfg.fkFind row col = none) (pressed : Bool) :
    dispatchEvent row col pressed s = s.setReport (keyReport s.cfg s.layer row col pressed s.report) := by
  cases pressed with
  | false => simp [dispatchEvent, h, releaseKey_eq_setReport, keyReport]
  | true => simp [dispatchEvent, h, pressKey_eq_addKey, addKey, keyReport]

/-! ### What a dispatch records: no KEY event -/

theorem dispatchEvent_noKey (row col : Nat) (pressed : Bool) (s : State) :
    ActsOnly (fun e => isKey e = false) s (dispatchEvent row col pressed s) := by
  cases hfind : s.cfg.fkFind row col with
  | none =>
    rw [dispatchEvent_of_none hfind]
    exact .of_silent ((Acts.refl s).congr (by simp) (by simp))
  | some e =>
    cases haction : e.action with
    | layerSwitch =>
      rw [dispatchEvent_of_layerSwitch hfind haction]
      exact .of_silent ((Acts.refl s).congr (by simp) (by simp [layerSwitch]))
    | other id =>
      rw [dispatchEvent_of_other hfind haction]
      exact ⟨_, emit_acts _ s rfl, by simp [isKey]⟩

/-! ### STATUS and RESULT play no part (R45) -/

theorem irqEdge_setPort (s : State) (v : PortRegs) : irqEdge (s.setPort v) = (irqEdge s).setPort v := by
  unfold irqEdge
  rw [State.setPort_dev]
  split <;> rfl

theorem irqEdges_setPort (n : Nat) (s : State) (v : PortRegs) :
    irqEdges n (s.setPort v) = (irqEdges n s).setPort v := by
  induction n generalizing s with
  | zero => rfl
  | succ n ih => rw [irqEdges, irqEdge_setPort, ih]; rfl

theorem interleave_setPort (s : State) (v : PortRegs) : interleave (s.setPort v) = (interleave s).setPort v := by
  cases hedges : s.env.edges with
  | nil => simp [hedges]
  | cons n rest =>
    simp only [interleave, State.setPort_env, hedges]
    exact irqEdges_setPort n (s.setEnv { s.env with edges := rest }) v

theorem emit_setPort (e : Event) (s : State) (v : PortRegs) : emit e (s.setPort v) = (emit e s).setPort v := by
  rw [emit, interleave_setPort]; rfl

theorem dispatchEvent_setPort (row col : Nat) (pressed : Bool) (s : State) (v : PortRegs) :
    dispatchEvent row col pressed (s.setPort v) = (dispatchEvent row col pressed s).setPort v := by
  cases hfind : s.cfg.fkFind row col with
  | none =>
    rw [dispatchEvent_of_none hfind, dispatchEvent_of_none (s := s.setPort v) hfind]; rfl
  | some e =>
    cases haction : e.action with
    | layerSwitch =>
      rw [dispatchEvent_of_layerSwitch hfind haction, dispatchEvent_of_layerSwitch (s := s.setPort v) hfind haction]
      rfl
    | other id =>
      rw [dispatchEvent_of_other hfind haction, dispatchEvent_of_other (s := s.setPort v) hfind haction, emit_setPort]

theorem emitAndDispatch_setPort (s : State) (v : PortRegs) (e : KeyEvent) :
    emitAndDispatch (s.setPort v) e = (emitAndDispatch s e).setPort v := by
  rw [emitAndDispatch, emit_setPort, dispatchEvent_setPort]; rfl

theorem dispatchEvents_setPort (es : List KeyEvent) (s : State) (v : PortRegs) :
    es.foldl emitAndDispatch (s.setPort v) = (es.foldl emitAndDispatch s).setPort v :=
  List.foldl_hom (fun u : State => u.setPort v) fun u e => emitAndDispatch_setPort u v e

/-! ### What a dispatch does to LAYER and the report -/

/-- The parameters, LAYER and the report are the same: all that a dispatch reads of the block. -/
structure SameKeyState (s t : State) : Prop where
  cfg : t.cfg = s.cfg
  layer : t.layer = s.layer
  report : t.report = s.report

theorem SameKeyState.refl (s : State) : SameKeyState s s := ⟨rfl, rfl, rfl⟩

theorem SameKeyState.trans {s t u : State} (h : SameKeyState s t) (g : SameKeyState t u) : SameKeyState s u :=
  ⟨g.cfg.trans h.cfg, g.layer.trans h.layer, g.report.trans h.report⟩

theorem emit_sameKeyState (e : Event) (s : State) : SameKeyState s (emit e s) :=
  ⟨emit_cfg e s, emit_layer e s, emit_report e s⟩

theorem setPort_sameKeyState (s : State) (v : PortRegs) : SameKeyState (s.setPort v) s := ⟨rfl, rfl, rfl⟩

theorem SameKeyState.dispatchEvent {s t : State} (h : SameKeyState s t) (row col : Nat) (pressed : Bool) :
    SameKeyState (dispatchEvent row col pressed s) (dispatchEvent row col pressed t) := by
  obtain ⟨hcfg, hlayer, hreport⟩ := h
  have hfind : t.cfg.fkFind row col = s.cfg.fkFind row col := by rw [hcfg]
  cases hentry : s.cfg.fkFind row col with
  | none =>
    rw [dispatchEvent_of_none hentry, dispatchEvent_of_none (hfind.trans hentry)]
    exact ⟨hcfg, hlayer, by simp [hcfg, hlayer, hreport]⟩
  | some e =>
    cases haction : e.action with
    | layerSwitch =>
      rw [dispatchEvent_of_layerSwitch hentry haction, dispatchEvent_of_layerSwitch (hfind.trans hentry) haction]
      exact ⟨hcfg, by simp [layerSwitch, hcfg, hlayer], hreport⟩
    | other id =>
      rw [dispatchEvent_of_other hentry haction, dispatchEvent_of_other (hfind.trans hentry) haction]
      exact ⟨by simpa using hcfg, by simpa using hlayer, by simpa using hreport⟩

end Sys2Proof.Machine
end

section
/-! SUPPORT. EdgeDispatch (spec/43_edge_dispatcher.md R200, R201) column by column, and its events as DIFF and as the
DISPATCH commands run them (R202, R215). -/

namespace Sys2Proof.Machine

open Sys2Proof.Claims

/-! ### The events of one column -/

theorem mem_columnEvents_iff {col : Nat} {prev curr : Byte} {e : KeyEvent} :
    e ∈ columnEvents col prev curr ↔
      e.col = col ∧ e.row < 8 ∧ prev.getLsbD e.row ≠ curr.getLsbD e.row ∧ e.pressed = curr.getLsbD e.row := by
  obtain ⟨row, c, pressed⟩ := e
  simp only [columnEvents, List.mem_map, List.mem_filter, List.mem_range, BitVec.getLsbD_xor, bne_iff_ne,
    KeyEvent.mk.injEq]
  constructor
  · rintro ⟨r, ⟨hr, hdiff⟩, rfl, rfl, rfl⟩
    exact ⟨rfl, hr, hdiff, rfl⟩
  · rintro ⟨rfl, hr, hdiff, rfl⟩
    exact ⟨row, ⟨hr, hdiff⟩, rfl, rfl, rfl⟩

theorem length_columnEvents (col : Nat) (prev curr : Byte) :
    (columnEvents col prev curr).length = popCount (prev ^^^ curr) := by
  rw [columnEvents, List.length_map, popCount, List.countP_eq_length_filter]

/-- Rows ascend within a column. -/
theorem columnEvents_pairwise_before (col : Nat) (prev curr : Byte) :
    (columnEvents col prev curr).Pairwise Before :=
  List.pairwise_map.mpr ((List.pairwise_lt_range.filter _).imp fun hlt => .inr ⟨rfl, hlt⟩)

/-! ### All columns -/

theorem mem_edgeDispatch_iff {n : Nat} {a b : Snapshot} {e : KeyEvent} :
    e ∈ edgeDispatch n a b ↔
      e.col < n ∧ e.row < 8 ∧ bitAt a e.col e.row ≠ bitAt b e.col e.row ∧ e.pressed = bitAt b e.col e.row := by
  simp only [edgeDispatch, List.mem_flatMap, List.mem_range, mem_columnEvents_iff]
  constructor
  · rintro ⟨c, hc, rfl, hrow, hdiff, hpressed⟩
    exact ⟨hc, hrow, hdiff, hpressed⟩
  · rintro ⟨hc, hrow, hdiff, hpressed⟩
    exact ⟨e.col, hc, rfl, hrow, hdiff, hpressed⟩

/-- One event for each differing bit (R201). -/
theorem length_edgeDispatch (n : Nat) (a b : Snapshot) :
    (edgeDispatch n a b).length = ((List.range n).map fun c => popCount (snapAt a c ^^^ snapAt b c)).sum := by
  simp only [edgeDispatch, List.length_flatMap, length_columnEvents]

/-- Equal snapshots have no differing bit (R201). -/
theorem edgeDispatch_self (n : Nat) (a : Snapshot) : edgeDispatch n a a = [] := by
  refine List.eq_nil_iff_forall_not_mem.mpr fun e he => ?_
  obtain ⟨-, -, hdiff, -⟩ := mem_edgeDispatch_iff.mp he
  exact hdiff rfl

/-- Columns ascend, and rows within a column (R200). -/
theorem edgeDispatch_pairwise_before (n : Nat) (a b : Snapshot) : (edgeDispatch n a b).Pairwise Before := by
  refine List.pairwise_flatMap.mpr ⟨fun c _ => columnEvents_pairwise_before c _ _, ?_⟩
  refine List.pairwise_lt_range.imp fun hlt x hx y hy => .inl ?_
  obtain ⟨hxcol, -⟩ := mem_columnEvents_iff.mp hx
  obtain ⟨hycol, -⟩ := mem_columnEvents_iff.mp hy
  rwa [hxcol, hycol]

theorem ne_of_before {x y : KeyEvent} (h : Before x y) : x ≠ y := by
  rintro rfl
  obtain hcol | ⟨-, hrow⟩ := h
  · exact Nat.lt_irrefl _ hcol
  · exact Nat.lt_irrefl _ hrow

/-! ### The KEY events of a run of Key Events -/

/-- `t` follows `s` by events of the block of which the KEY events are `keys`. -/
def ActsWithKeys (s t : State) (keys : List Event) : Prop :=
  ∃ own, Acts s t own ∧ own.filter isKey = keys

/-- The KEY events among all new entries of the trace: an interrupt entry is none. -/
theorem ActsWithKeys.trace {s t : State} {keys : List Event} (h : ActsWithKeys s t keys) :
    ∃ more, t.trace = s.trace ++ more ∧ more.filter isKey = keys := by
  obtain ⟨own, acts, hkeys⟩ := h
  obtain ⟨more, htrace, hown, -⟩ := acts.trace
  refine ⟨more, htrace, ?_⟩
  rw [← hkeys, ← hown, List.filter_filter]
  refine List.filter_congr fun e _ => ?_
  cases e <;> rfl

/-- One event of DIFF records itself, and its dispatch records no other (R202). -/
theorem emitAndDispatch_keys (s : State) (e : KeyEvent) : ActsWithKeys s (emitAndDispatch s e) [keyEvent e] := by
  obtain ⟨own, acts, hnone⟩ := dispatchEvent_noKey e.row e.col e.pressed (emit (keyEvent e) s)
  refine ⟨_, (emit_acts (keyEvent e) s rfl).trans acts (by simp), ?_⟩
  have hown : own.filter isKey = [] := List.filter_eq_nil_iff.mpr fun x hx => by simp [hnone x hx]
  rw [List.filter_append, hown]
  rfl

theorem dispatchEvents_keys (es : List KeyEvent) (s : State) :
    ActsWithKeys s (es.foldl emitAndDispatch s) (es.map keyEvent) := by
  induction es generalizing s with
  | nil => exact ⟨[], .refl s, rfl⟩
  | cons e es ih =>
    obtain ⟨first, acts, hfirst⟩ := emitAndDispatch_keys s e
    obtain ⟨others, acts', hothers⟩ := ih (emitAndDispatch s e)
    exact ⟨first ++ others, acts.trans acts' (by simp), by rw [List.filter_append, hfirst, hothers]; rfl⟩

/-! ### Key Events as DISPATCH commands (R215) -/

/-- The position is one of the matrix, and its row one of a snapshot byte. -/
structure InMatrix (p : Params) (e : KeyEvent) : Prop where
  row_lt : e.row < p.rows
  row_lt_eight : e.row < 8
  col_lt : e.col < p.cols

theorem inMatrix_of_mem_edgeDispatch {p : Params} {a b : Snapshot} {e : KeyEvent} (he : e ∈ edgeDispatch p.cols a b)
    (hrow : e.row < p.rows) : InMatrix p e := by
  obtain ⟨hcol, hrow8, -⟩ := mem_edgeDispatch_iff.mp he
  exact ⟨hrow, hrow8, hcol⟩

/-- Two chips of at most 8 columns each, so that a column index fits DISPATCH's operand (R10, R104). -/
theorem cols_le (p : Params) : p.cols ≤ 16 := by
  have h0 := p.cols0.isLt
  have h1 := p.cols1.isLt
  unfold Params.cols
  omega

/-- The DISPATCH command of a Key Event in the matrix is its dispatch (R215, R216). -/
theorem exec_dispatchOf {s : State} {e : KeyEvent} (h : InMatrix s.cfg e) :
    exec (dispatchOf e) s = .next ((dispatchEvent e.row e.col e.pressed s).setPort ⟨0x00#8, []⟩) := by
  obtain ⟨hrow, hrow8, hcol⟩ := h
  have hcol16 := hcol.trans_le (cols_le s.cfg)
  have hr : (BitVec.ofNat 3 e.row).toNat = e.row := (BitVec.toNat_ofNat ..).trans (Nat.mod_eq_of_lt hrow8)
  have hc : (BitVec.ofNat 4 e.col).toNat = e.col := (BitVec.toNat_ofNat ..).trans (Nat.mod_eq_of_lt hcol16)
  rw [dispatchOf, exec, execDispatch, hr, hc, if_pos ⟨hrow, hcol⟩]
  rfl

theorem recordAndDispatch_cons {e : KeyEvent} {s u : State} (h : exec (dispatchOf e) (emit (keyEvent e) s) = .next u)
    (es : List KeyEvent) : recordAndDispatch (e :: es) s = recordAndDispatch es u :=
  congrArg (List.foldl _ · es) h

theorem dispatchAll_cons {e : KeyEvent} {s u : State} (h : exec (dispatchOf e) s = .next u) (es : List KeyEvent) :
    dispatchAll (e :: es) s = dispatchAll es u :=
  congrArg (List.foldl _ · (es.map dispatchOf)) h

/-- DIFF's events are each recorded and then dispatched as DISPATCH does, but for STATUS and RESULT (R202). -/
theorem recordAndDispatch_eq {es : List KeyEvent} {s : State} (h : ∀ e ∈ es, InMatrix s.cfg e) :
    ∃ v, recordAndDispatch es s = .next ((es.foldl emitAndDispatch s).setPort v) := by
  induction es generalizing s with
  | nil => exact ⟨s.port, rfl⟩
  | cons e es ih =>
    obtain ⟨he, hes⟩ := List.forall_mem_cons.mp h
    have first := exec_dispatchOf (s := emit (keyEvent e) s) (by rwa [emit_cfg])
    obtain ⟨v, others⟩ := ih (s := (emitAndDispatch s e).setPort ⟨0x00#8, []⟩) (by simpa using hes)
    refine ⟨v, ?_⟩
    rw [recordAndDispatch_cons first, List.foldl_cons]
    exact others.trans (by rw [dispatchEvents_setPort, State.setPort_setPort])

/-- The DISPATCH commands alone leave LAYER and the report as DIFF's events do (R202). -/
theorem dispatchAll_sameKeyState {es : List KeyEvent} {s t : State} (hst : SameKeyState s t)
    (h : ∀ e ∈ es, InMatrix s.cfg e) :
    ∃ v, dispatchAll es s = .next v ∧ SameKeyState v (es.foldl emitAndDispatch t) := by
  induction es generalizing s t with
  | nil => exact ⟨s, rfl, hst⟩
  | cons e es ih =>
    obtain ⟨he, hes⟩ := List.forall_mem_cons.mp h
    have recorded : SameKeyState s (emit (keyEvent e) t) := hst.trans (emit_sameKeyState _ t)
    have dispatched := recorded.dispatchEvent e.row e.col e.pressed
    rw [dispatchAll_cons (exec_dispatchOf he)]
    exact ih ((setPort_sameKeyState _ _).trans dispatched) (by simpa using hes)

end Sys2Proof.Machine
end

section
/-! PROOFS. The edge dispatcher (spec/43_edge_dispatcher.md): what EdgeDispatch emits, and what DIFF does with it. -/

namespace Sys2Proof.Machine

open Sys2Proof.Claims

/-- Settles O36: its parts are those of each column, and no event stands before itself. -/
theorem edgeDispatchEmitsTheDifferences : Obligations.EdgeDispatchEmitsTheDifferences := fun n a b =>
  ⟨fun _ => mem_edgeDispatch_iff, length_edgeDispatch n a b, edgeDispatch_self n a,
    edgeDispatch_pairwise_before n a b, (edgeDispatch_pairwise_before n a b).imp ne_of_before⟩

theorem exec_diff (s : State) : exec .diff s = .next ((diffBody s).setPort ⟨0x00#8, []⟩) := rfl

theorem diffBody_keys (s : State) :
    ActsWithKeys s (diffBody s) ((edgeDispatch s.cfg.cols s.snap.stablePrev s.snap.stable).map keyEvent) := by
  obtain ⟨own, acts, hkeys⟩ := dispatchEvents_keys (edgeDispatch s.cfg.cols s.snap.stablePrev s.snap.stable) s
  exact ⟨own, acts.congr (by simp) (by simp [diffBody]), hkeys⟩

/-- With STABLE latched already, there is no difference to dispatch and nothing to latch (R201, R202). -/
theorem diffBody_of_latched {s : State} (h : s.snap.stablePrev = s.snap.stable) : diffBody s = s := by
  have none : edgeDispatch s.cfg.cols s.snap.stablePrev s.snap.stable = [] := by rw [h, edgeDispatch_self]
  rw [diffBody, none]
  exact congrArg (fun prev => s.setSnap { s.snap with stablePrev := prev }) h.symm

/-- Settles O37: the KEY events are those of the fold over the differences, and so are LAYER and the report, whether the
fold is run by DIFF or as DISPATCH commands. -/
theorem diffRecordsAndLatches : Obligations.DiffRecordsAndLatches := by
  intro s es
  obtain ⟨more, htrace, hkeys⟩ := (diffBody_keys s).trace
  refine ⟨_, more, exec_diff s, htrace, hkeys, diffBody_snap s, diffBody_cfg s, diffBody_dev s, diffBody_seq s,
    diffBody_report_lastSendOk s, (diffBody_actsSome s).wakeMoves,
    ⟨diffBody_env_writeAnswers s, diffBody_env_readAnswers s, diffBody_env_sendAnswers s⟩, rfl, fun hrows => ?_⟩
  have hmatrix : ∀ e ∈ es, InMatrix s.cfg e := fun e he => inMatrix_of_mem_edgeDispatch he (hrows e he)
  obtain ⟨port, hrecord⟩ := recordAndDispatch_eq hmatrix
  obtain ⟨v, hdispatch, hsame⟩ := dispatchAll_sameKeyState (.refl s) hmatrix
  exact ⟨⟨_, hrecord, rfl⟩, v, hdispatch, hsame.layer, hsame.report⟩

/-- Settles O38: the first DIFF latches STABLE. -/
theorem secondDiffDoesNothing : Obligations.SecondDiffDoesNothing := by
  intro s
  refine ⟨_, exec_diff s, ?_⟩
  rw [exec_diff, diffBody_of_latched (by simp)]
  rfl

end Sys2Proof.Machine
end

section
/-! SUPPORT. The report under key removals (spec/45_report_assembler.md R239, R240): what one removal clears, that it
sets nothing, and runs of removals such as a release makes (R222). -/

namespace Sys2Proof.Machine

open Sys2Proof.Claims

/-! ### One slot removed -/

/-- The first slot that holds the keycode goes, and an empty one follows the rest. -/
theorem toList_remove (k : Byte) (t : Slots) :
    (t.remove k).toList = if k ∈ t.toList then t.toList.erase k ++ [0#8] else t.toList := by
  obtain ⟨s0, s1, s2, s3, s4, s5⟩ := t
  simp only [Slots.remove, Slots.toList, List.erase_cons, beq_iff_eq, List.mem_cons, eq_comm (a := k)]
  split_ifs <;> simp_all

theorem count_toList_remove (k : Byte) (t : Slots) {kc : Byte} (hkc : kc ≠ 0#8) :
    (t.remove k).toList.count kc = (t.toList.erase k).count kc := by
  by_cases hmem : k ∈ t.toList
  · simp [toList_remove, hmem, hkc.symm]
  · rw [toList_remove, if_neg hmem, List.erase_of_not_mem hmem]

/-! ### One key removed -/

theorem modBit_zero (p : Params) : p.modBit 0#8 = none := rfl

theorem removeKeyReport_of_modifier {p : Params} {k : Byte} {b : Fin 8} (h : p.modBit k = some b) (r : Report) :
    removeKeyReport p k r = markChange r { r with mods := r.mods &&& ~~~ bitMask b.val } := by
  have hk : k ≠ 0#8 := by rintro rfl; simp [modBit_zero] at h
  simp [removeKeyReport, hk, h]

theorem removeKeyReport_of_slot {p : Params} {k : Byte} (hk : k ≠ 0#8) (h : p.modBit k = none) (r : Report) :
    removeKeyReport p k r = markChange r { r with slots := r.slots.remove k } := by
  simp [removeKeyReport, hk, h]

/-- A removal writes nothing, one modifier bit, or one slot. -/
theorem removeKeyReport_cases (p : Params) (k : Byte) (r : Report) :
    removeKeyReport p k r = r ∨
    (∃ b : Fin 8, removeKeyReport p k r = markChange r { r with mods := r.mods &&& ~~~ bitMask b.val }) ∨
    removeKeyReport p k r = markChange r { r with slots := r.slots.remove k } := by
  by_cases hk : k = 0#8
  · exact .inl (if_pos hk)
  · cases h : p.modBit k with
    | some b => exact .inr (.inl ⟨b, removeKeyReport_of_modifier h r⟩)
    | none => exact .inr (.inr (removeKeyReport_of_slot hk h r))

theorem removeKeyReport_clears_bit {p : Params} {k : Byte} {b : Fin 8} (h : p.modBit k = some b) (r : Report) :
    (removeKeyReport p k r).mods.getLsbD b.val = false := by
  rw [removeKeyReport_of_modifier h]
  simp [markChange, bitMask]

theorem removeKeyReport_sets_no_bit (p : Params) (k : Byte) {r : Report} {i : Nat} (h : r.mods.getLsbD i = false) :
    (removeKeyReport p k r).mods.getLsbD i = false := by
  obtain heq | ⟨b, heq⟩ | heq := removeKeyReport_cases p k r <;> simp [heq, markChange, h]

/-- A keycode in at most one slot is in none after its removal. -/
theorem removeKeyReport_clears_slot {p : Params} {k : Byte} (hk : k ≠ 0#8) (h : p.modBit k = none) {r : Report}
    (hone : r.slots.toList.count k ≤ 1) : (removeKeyReport p k r).slots.toList.count k = 0 := by
  have count : (removeKeyReport p k r).slots.toList.count k = r.slots.toList.count k - 1 := by
    rw [removeKeyReport_of_slot hk h, ← List.count_erase_self]
    exact count_toList_remove k r.slots hk
  omega

theorem removeKeyReport_count_le (p : Params) (k : Byte) (r : Report) {kc : Byte} (hkc : kc ≠ 0#8) :
    (removeKeyReport p k r).slots.toList.count kc ≤ r.slots.toList.count kc := by
  obtain heq | ⟨b, heq⟩ | heq := removeKeyReport_cases p k r
  · rw [heq]
  · rw [heq]; rfl
  · rw [heq]
    exact (count_toList_remove k r.slots hkc).trans_le (List.erase_sublist.count_le kc)

/-! ### Runs of removals -/

/-- The report after the keys are removed, the first first. -/
def removeKeys (p : Params) (ks : List Byte) (r : Report) : Report :=
  ks.foldl (fun r k => removeKeyReport p k r) r

/-- What every removal keeps, a run keeps. -/
theorem removeKeys_keeps {p : Params} {P : Report → Prop} (keep : ∀ k r, P r → P (removeKeyReport p k r))
    (ks : List Byte) {r : Report} (h : P r) : P (removeKeys p ks r) :=
  List.foldlRecOn ks _ h fun r hr k _ => keep k r hr

/-- A run in which a key occurs: the keys before it, the key, the keys after it. -/
theorem removeKeys_append_cons (p : Params) (before after : List Byte) (k : Byte) (r : Report) :
    removeKeys p (before ++ k :: after) r = removeKeys p after (removeKeyReport p k (removeKeys p before r)) :=
  List.foldl_append

theorem removeKeys_clears_bit {p : Params} {k : Byte} {b : Fin 8} (h : p.modBit k = some b) {ks : List Byte}
    (hmem : k ∈ ks) (r : Report) : (removeKeys p ks r).mods.getLsbD b.val = false := by
  obtain ⟨before, after, rfl⟩ := List.append_of_mem hmem
  rw [removeKeys_append_cons]
  exact removeKeys_keeps (P := fun r => r.mods.getLsbD b.val = false) (fun k _ => removeKeyReport_sets_no_bit p k)
    after (removeKeyReport_clears_bit h _)

theorem removeKeys_count_le (p : Params) (ks : List Byte) {kc : Byte} (hkc : kc ≠ 0#8) {n : Nat} {r : Report}
    (h : r.slots.toList.count kc ≤ n) : (removeKeys p ks r).slots.toList.count kc ≤ n :=
  removeKeys_keeps (P := fun r => r.slots.toList.count kc ≤ n)
    (fun k r hr => (removeKeyReport_count_le p k r hkc).trans hr) ks h

theorem removeKeys_clears_slot {p : Params} {k : Byte} (hk : k ≠ 0#8) (h : p.modBit k = none) {ks : List Byte}
    (hmem : k ∈ ks) {r : Report} (hone : r.slots.toList.count k ≤ 1) : k ∉ (removeKeys p ks r).slots.toList := by
  obtain ⟨before, after, rfl⟩ := List.append_of_mem hmem
  have removed := removeKeyReport_clears_slot hk h (removeKeys_count_le p before hk hone)
  rw [removeKeys_append_cons, ← List.count_eq_zero, ← Nat.le_zero]
  exact removeKeys_count_le p after hk removed.le

/-- The REMOVE_KEY commands in order are one run of removals, but for STATUS and RESULT. -/
theorem foldl_removeKey_commands (ks : List Byte) (s : State) :
    ∃ v, (ks.map Instr.removeKey).foldl andThen (.next s) =
      .next ((s.setReport (removeKeys s.cfg ks s.report)).setPort v) := by
  induction ks generalizing s with
  | nil => exact ⟨s.port, rfl⟩
  | cons k ks ih => exact ih ((removeKey k s).setPort ⟨0x00#8, []⟩)

/-! ### A release (R222) -/

theorem keymapAt_mem_codesOf {p : Params} {l row col : Nat} (hl : l < p.layers) (hk : p.keymapAt l row col ≠ 0#8) :
    p.keymapAt l row col ∈ codesOf p row col :=
  List.mem_filter.mpr ⟨List.mem_map_of_mem (List.mem_range.mpr hl), decide_eq_true hk⟩

/-- Keycode 0 removes nothing, so that a run may leave it out. -/
theorem removeKeys_filter_nonzero (p : Params) (ks : List Byte) (r : Report) :
    removeKeys p (ks.filter fun k => decide (k ≠ 0#8)) r = removeKeys p ks r := by
  induction ks generalizing r with
  | nil => rfl
  | cons k ks ih =>
    by_cases hk : k = 0#8
    · rw [List.filter_cons_of_neg (by simp [hk]), ih, hk]; rfl
    · rw [List.filter_cons_of_pos (by simp [hk])]; exact ih _

theorem releaseReport_eq_removeKeys (p : Params) (row col : Nat) (r : Report) :
    releaseReport p row col r = removeKeys p (codesOf p row col) r := by
  rw [codesOf, removeKeys_filter_nonzero, removeKeys, List.foldl_map]
  rfl

end Sys2Proof.Machine
end

section
/-! PROOFS. The keymap dispatcher (spec/44_keymap_dispatcher.md): what DISPATCH does at a layer key, at another function
key, and with a key press and a key release. -/

namespace Sys2Proof.Machine

open Sys2Proof.Claims

/-! ### DISPATCH in range, and its function key -/

theorem wf_dispatch_iff (p : Params) (b : Bool) (r : BitVec 3) (c : BitVec 4) :
    (Instr.dispatch b r c).wf p = true ↔ r.toNat < p.rows ∧ c.toNat < p.cols := by
  simp [Instr.wf]

theorem exec_dispatch_of_wf {s : State} {b : Bool} {r : BitVec 3} {c : BitVec 4}
    (h : (Instr.dispatch b r c).wf s.cfg = true) :
    exec (.dispatch b r c) s = .next ((dispatchEvent r.toNat c.toNat b s).setPort ⟨0x00#8, []⟩) :=
  congrArg Host.Outcome.next (if_pos ((wf_dispatch_iff s.cfg b r c).mp h))

theorem exec_addKey (k : Byte) (s : State) : exec (.addKey k) s = .next ((addKey k s).setPort ⟨0x00#8, []⟩) := rfl

theorem fkFind_of_firstEntry {p : Params} {row col : Nat} {e : FkEntry} (h : FirstEntry p row col e) :
    p.fkFind row col = some e := by
  obtain ⟨before, after, hfkt, hrow, hcol, hbefore⟩ := h
  exact fkFind_eq_some hfkt hrow hcol hbefore

/-! ### Function keys (R217 to R220) -/

theorem layerSwitch_press (s : State) : (layerSwitch true s).layer = min (s.layer + 1) (s.cfg.layers - 1) := rfl

theorem layerSwitch_release (s : State) : (layerSwitch false s).layer = s.layer - 1 := rfl

/-- With one layer there is nowhere to go. -/
theorem layerSwitch_one_layer {s : State} (hone : s.cfg.layers = 1) (hlayer : s.layer = 0) (b : Bool) :
    (layerSwitch b s).layer = 0 := by
  cases b with
  | false => rw [layerSwitch_release, hlayer]
  | true => rw [layerSwitch_press, hone, Nat.min_zero]

/-- Settles O39: the entry found is the layer key, and subtraction of naturals is the clamp at 0. -/
theorem layerKeyMovesLayer : Obligations.LayerKeyMovesLayer := by
  intro b r c s e hwf hentry haction
  have dispatched := dispatchEvent_of_layerSwitch (fkFind_of_firstEntry hentry) haction b
  refine ⟨_, exec_dispatch_of_wf hwf, ?_⟩
  rw [dispatched]
  refine ⟨rfl, ?_, ?_, fun hone hlayer => layerSwitch_one_layer hone hlayer b⟩
  · rintro rfl
    exact layerSwitch_press s
  · rintro rfl
    rw [State.setPort_layer, layerSwitch_release]
    omega

theorem emit_sameBlock (e : Event) (s : State) : SameBlock s (emit e s) := by
  constructor <;> simp

/-- Settles O40: the dispatch is one ACT event. -/
theorem otherActionOnlyRecords : Obligations.OtherActionOnlyRecords := by
  intro b r c s e id hwf hentry haction
  have acts := (emit_acts (.act id (if b then .actBegin else .actEnd)) s rfl).setPort ⟨0x00#8, []⟩
  refine ⟨_, exec_dispatch_of_wf hwf, ?_⟩
  rw [dispatchEvent_of_other (fkFind_of_firstEntry hentry) haction]
  exact ⟨(emit_sameBlock _ s).setPort _, acts.wakeMoves, ⟨by simp, by simp, by simp⟩, acts.grows, rfl⟩

/-! ### Keys (R221 to R224) -/

theorem dispatchEvent_press {s : State} {row col : Nat} (h : s.cfg.fkFind row col = none) :
    dispatchEvent row col true s = addKey (s.cfg.keymapAt s.layer row col) s :=
  dispatchEvent_of_none h true

/-- Settles O41: a press on no function key adds the current layer's keycode. -/
theorem pressAddsCurrentLayerKeycode : Obligations.PressAddsCurrentLayerKeycode := by
  intro r c s hwf hnone
  have pressed : exec (.dispatch true r c) s = exec (.addKey (s.cfg.keymapAt s.layer r.toNat c.toNat)) s := by
    rw [exec_dispatch_of_wf hwf, dispatchEvent_press (fkFind_eq_none hnone), exec_addKey]
  refine ⟨pressed, _, pressed.trans (exec_addKey _ s), rfl, fun hzero => ?_⟩
  rw [hzero, addKey_zero]
  rfl

theorem dispatchEvent_release {s : State} {row col : Nat} (h : s.cfg.fkFind row col = none) :
    dispatchEvent row col false s = s.setReport (removeKeys s.cfg (codesOf s.cfg row col) s.report) := by
  rw [← releaseReport_eq_removeKeys]
  exact dispatchEvent_of_none h false

/-- Settles O42: a release on no function key is the run of removals over the position's keycodes, and a run clears the
bit or the one slot of every key in it. -/
theorem releaseRemovesEveryLayersKeycode : Obligations.ReleaseRemovesEveryLayersKeycode := by
  intro r c s hwf hnone
  obtain ⟨v, commands⟩ := foldl_removeKey_commands (codesOf s.cfg r.toNat c.toNat) s
  refine ⟨_, exec_dispatch_of_wf hwf, ?_⟩
  rw [State.setPort_report, dispatchEvent_report_lastSendOk, dispatchEvent_release (fkFind_eq_none hnone)]
  refine ⟨rfl, rfl, ⟨_, commands, rfl⟩, fun l hl => ?_⟩
  intro kc hkc
  have hmem : kc ∈ codesOf s.cfg r.toNat c.toNat := keymapAt_mem_codesOf hl hkc
  exact ⟨fun b hbit => removeKeys_clears_bit hbit hmem s.report,
    fun hslot hone => removeKeys_clears_slot hkc hslot hmem hone⟩

end Sys2Proof.Machine
end

section
/-! SUPPORT. The report assembler (spec/45_report_assembler.md): what the six slots hold after a key joins or leaves
(R236, R238, R239), what ADD_KEY and REMOVE_KEY do to MODS and DIRTY (R237, R240), and the commands IS_ANY,
SERIALIZE and TRANSMIT as one update each. -/

namespace Sys2Proof.Machine

open Sys2Proof.Claims

/-! ### The slots as a list -/

theorem zero_mem_toList_iff (t : Slots) :
    0#8 ∈ t.toList ↔ t.s0 = 0#8 ∨ t.s1 = 0#8 ∨ t.s2 = 0#8 ∨ t.s3 = 0#8 ∨ t.s4 = 0#8 ∨ t.s5 = 0#8 := by
  simp [Slots.toList, eq_comm (a := 0#8)]

theorem zero_notMem_toList_iff (t : Slots) : 0#8 ∉ t.toList ↔ ∀ i : Fin 6, t.get i ≠ 0#8 := by
  rw [zero_mem_toList_iff]
  simp [Slots.get, Slots.toList, Fin.forall_fin_succ]

theorem length_occupied_le (t : Slots) : t.occupied.length ≤ 6 :=
  List.length_filter_le _ t.toList

/-- Fewer than six slots are occupied exactly when one is empty. -/
theorem length_occupied_lt_iff (t : Slots) : t.occupied.length < 6 ↔ 0#8 ∈ t.toList := by
  have room : t.occupied.length < t.toList.length ↔ ∃ k ∈ t.toList, ¬ decide (k ≠ 0#8) = true :=
    List.length_filter_lt_length_iff_exists
  exact room.trans (by simp)

/-! ### A key joins the slots -/

/-- With no slot empty the oldest key leaves and the new one stands last (R236, R238). -/
theorem insert_of_full {t : Slots} (hfull : 0#8 ∉ t.toList) (k : Byte) :
    t.insert k = ⟨t.s1, t.s2, t.s3, t.s4, t.s5, k⟩ := by
  simp only [zero_mem_toList_iff, not_or] at hfull
  simp [Slots.insert, hfull]

/-- The evicted key is gone if no other slot held it (R238). -/
theorem evicted_notMem_insert {t : Slots} (hfull : 0#8 ∉ t.toList) {k : Byte} (hk : k ∉ t.toList)
    (hone : t.toList.count t.s0 = 1) : t.s0 ∉ (t.insert k).toList := by
  have hkeys : t.toList = t.s0 :: [t.s1, t.s2, t.s3, t.s4, t.s5] := rfl
  have hrest : [t.s1, t.s2, t.s3, t.s4, t.s5].count t.s0 = 0 := by
    rw [hkeys, List.count_cons_self] at hone
    omega
  have hold : t.s0 ≠ k := fun h => hk (h ▸ List.mem_cons_self)
  have hlast : (t.insert k).toList = [t.s1, t.s2, t.s3, t.s4, t.s5] ++ [k] := by
    rw [insert_of_full hfull]
    rfl
  rw [hlast, List.mem_append, List.mem_singleton, not_or]
  exact ⟨List.count_eq_zero.mp hrest, hold⟩

theorem occupied_insert_of_full {t : Slots} (hfull : 0#8 ∉ t.toList) {k : Byte} (hk : k ≠ 0#8) :
    (t.insert k).occupied = t.occupied.tail ++ [k] := by
  rw [insert_of_full hfull]
  simp only [zero_mem_toList_iff, not_or] at hfull
  simp [Slots.occupied, Slots.toList, hfull, hk]

/-- In compact slots the first empty one stands right behind the occupied ones (R236). -/
theorem occupied_insert_of_room {t : Slots} (hc : t.Compact) (hroom : 0#8 ∈ t.toList) {k : Byte} (hk : k ≠ 0#8) :
    (t.insert k).occupied = t.occupied ++ [k] := by
  rw [Slots.compact_iff] at hc
  rw [zero_mem_toList_iff] at hroom
  unfold Slots.insert
  split_ifs <;> simp_all [Slots.occupied, Slots.toList]

/-- In age order: the new key last, the oldest evicted when there is no room (R236, R241). -/
theorem occupied_insert {t : Slots} (hc : t.Compact) {k : Byte} (hk : k ≠ 0#8) :
    (t.insert k).occupied = if t.occupied.length < 6 then t.occupied ++ [k] else t.occupied.tail ++ [k] := by
  split
  · next hlt => exact occupied_insert_of_room hc ((length_occupied_lt_iff t).mp hlt) hk
  · next hge => exact occupied_insert_of_full (fun hroom => hge ((length_occupied_lt_iff t).mpr hroom)) hk

/-! ### A key leaves the slots -/

/-- In age order: the first occurrence leaves (R239, R241). -/
theorem occupied_remove (t : Slots) (k : Byte) : (t.remove k).occupied = t.occupied.erase k := by
  rw [Slots.occupied, Slots.occupied, List.erase_filter, toList_remove]
  split
  · simp
  · rw [List.erase_of_not_mem ‹_›]

/-! ### The modifier bits -/

theorem getLsbD_bitMask {b n : Nat} (hb : b < 8) (hn : n < 8) : (bitMask b).getLsbD n = decide (n = b) := by
  have low := colSelect_getLsbD hb hn
  rw [colSelect, BitVec.getLsbD_not] at low
  simpa [hn] using congrArg (!·) low

/-! ### ADD_KEY and REMOVE_KEY on the report -/

theorem addKeyReport_of_modifier {p : Params} {k : Byte} {b : Fin 8} (h : p.modBit k = some b) (r : Report) :
    addKeyReport p k r = markChange r { r with mods := r.mods ||| bitMask b.val } := by
  have hk : k ≠ 0#8 := by rintro rfl; simp [modBit_zero] at h
  simp [addKeyReport, hk, h]

theorem addKeyReport_of_slot {p : Params} {k : Byte} (hk : k ≠ 0#8) (h : p.modBit k = none) (r : Report) :
    addKeyReport p k r = markChange r { r with slots := r.slots.insert k } := by
  simp [addKeyReport, hk, h]

theorem addKeyReport_sets_bit {p : Params} {k : Byte} {b : Fin 8} (h : p.modBit k = some b) (r : Report) {n : Nat}
    (hn : n < 8) : (addKeyReport p k r).mods.getLsbD n = (r.mods.getLsbD n || decide (n = b.val)) := by
  rw [addKeyReport_of_modifier h, ← getLsbD_bitMask b.isLt hn]
  exact BitVec.getLsbD_or

theorem removeKeyReport_clears_only_bit {p : Params} {k : Byte} {b : Fin 8} (h : p.modBit k = some b) (r : Report)
    {n : Nat} (hn : n < 8) :
    (removeKeyReport p k r).mods.getLsbD n = (r.mods.getLsbD n && !decide (n = b.val)) := by
  rw [removeKeyReport_of_modifier h, ← decide_not, ← colSelect_getLsbD b.isLt hn]
  exact BitVec.getLsbD_and

/-! ### DIRTY (R237, R240) -/

theorem markChange_self (r : Report) : markChange r r = r := by
  simp [markChange, dirtyFlag]

theorem addKeyReport_marks_change (p : Params) (k : Byte) (r : Report) :
    ∃ after, addKeyReport p k r = markChange r after := by
  by_cases hk : k = 0#8
  · exact ⟨r, (if_pos hk).trans (markChange_self r).symm⟩
  · cases h : p.modBit k with
    | some b => exact ⟨_, addKeyReport_of_modifier h r⟩
    | none => exact ⟨_, addKeyReport_of_slot hk h r⟩

theorem removeKeyReport_marks_change (p : Params) (k : Byte) (r : Report) :
    ∃ after, removeKeyReport p k r = markChange r after := by
  obtain heq | ⟨b, heq⟩ | heq := removeKeyReport_cases p k r
  · exact ⟨r, heq.trans (markChange_self r).symm⟩
  · exact ⟨_, heq⟩
  · exact ⟨_, heq⟩

theorem markChange_dirty (before after : Report) :
    (SameKeys before (markChange before after) → (markChange before after).dirty = before.dirty) ∧
      (¬ SameKeys before (markChange before after) → (markChange before after).dirty = true) := by
  by_cases hsame : after.mods = before.mods ∧ after.slots = before.slots <;>
    simp [SameKeys, markChange, dirtyFlag, hsame]

/-! ### Adding a key to the empty report and removing it (R244) -/

/-- The slots that hold no key. -/
def noKeys : Slots :=
  ⟨0#8, 0#8, 0#8, 0#8, 0#8, 0#8⟩

theorem emptyReport_iff (r : Report) : EmptyReport r ↔ r.mods = 0#8 ∧ r.slots = noKeys := by
  refine and_congr_right fun _ => ?_
  obtain ⟨_, ⟨s0, s1, s2, s3, s4, s5⟩, _, _⟩ := r
  simp [Slots.get, Slots.toList, Fin.forall_fin_succ, noKeys]

theorem emptyReport_of_sameKeys {a b : Report} (ha : EmptyReport a) (h : SameKeys a b) : EmptyReport b := by
  obtain ⟨hmods, hslots⟩ := h
  rwa [EmptyReport, hmods, hslots]

theorem serialize_of_empty (p : Params) {r : Report} (h : EmptyReport r) :
    serialize p r = [p.reportId, 0x00#8, 0x00#8, 0x00#8, 0x00#8, 0x00#8, 0x00#8, 0x00#8, 0x00#8] := by
  obtain ⟨hmods, hslots⟩ := (emptyReport_iff r).mp h
  rw [serialize, hmods, hslots]
  rfl

theorem remove_insert_noKeys (k : Byte) : (noKeys.insert k).remove k = noKeys := by
  simp [noKeys, Slots.insert, Slots.remove]

theorem removeKeyReport_addKeyReport_empty {r : Report} (h : EmptyReport r) (p : Params) (k : Byte) :
    SameKeys r (removeKeyReport p k (addKeyReport p k r)) := by
  obtain ⟨hmods, hslots⟩ := (emptyReport_iff r).mp h
  by_cases hk : k = 0#8
  · subst hk
    exact ⟨rfl, rfl⟩
  · cases hbit : p.modBit k with
    | some b =>
      rw [removeKeyReport_of_modifier hbit, addKeyReport_of_modifier hbit]
      refine ⟨?_, rfl⟩
      simp [markChange, hmods]
    | none =>
      rw [removeKeyReport_of_slot hk hbit, addKeyReport_of_slot hk hbit]
      refine ⟨rfl, ?_⟩
      simp only [markChange, hslots]
      exact remove_insert_noKeys k

/-! ### IS_ANY, SERIALIZE and TRANSMIT -/

/-- IS_ANY's flag is set exactly when the report holds something (R242). -/
theorem anyPressed_iff (r : Report) : anyPressed r = true ↔ r.mods ≠ 0#8 ∨ ∃ i : Fin 6, r.slots.get i ≠ 0#8 := by
  simp [anyPressed, Slots.get, Slots.toList, Fin.exists_fin_succ, or_assoc]

theorem exec_removeKey (k : Byte) (s : State) :
    exec (.removeKey k) s = .next ((removeKey k s).setPort ⟨0x00#8, []⟩) := rfl

theorem exec_isAny (s : State) : exec .isAny s = .next (s.setPort ⟨0x00#8, [flagByte (anyPressed s.report)]⟩) := rfl

theorem exec_serialize (s : State) : exec .serialize s = .next (s.setPort ⟨0x00#8, serialize s.cfg s.report⟩) := rfl

theorem exec_transmit (s : State) :
    exec .transmit s =
      .next ((transmit s).2.setPort (if s.env.nextAccepted then ⟨0x00#8, []⟩ else ⟨0x03#8, []⟩)) := by
  cases h : s.env.nextAccepted <;> simp [exec, execTransmit, h] <;> rfl

theorem transmit_acts (s : State) :
    Acts s (transmit s).2 [.send (serialize s.cfg s.report) s.env.nextAccepted] :=
  (hidSend_acts (serialize s.cfg s.report) s).congr (by simp) (by simp [transmit])

theorem transmit_sendAnswers (s : State) : (transmit s).2.env.sendAnswers = s.env.sendAnswers.tail := by
  simp [transmit, hidSend_env]

end Sys2Proof.Machine
end

section
/-! PROOFS. The report assembler (spec/45_report_assembler.md): ADD_KEY and REMOVE_KEY on MODS, the slots and DIRTY,
and what IS_ANY, SERIALIZE and TRANSMIT answer. -/

namespace Sys2Proof.Machine

open Sys2Proof.Claims

/-- Settles O44, by what the keycode is: 0, a modifier, or a key for the slots. -/
theorem addKeyResult : Obligations.AddKeyResult := by
  intro kc s hcompact
  refine ⟨_, exec_addKey kc s, rfl, addKeyReport_lastSendOk s.cfg kc s.report,
    addKeyReport_compact s.cfg kc hcompact, ?_, ?_, ?_⟩
  · rintro rfl
    rfl
  · intro b hbit
    have hslots := congrArg Report.slots (addKeyReport_of_modifier hbit s.report)
    exact ⟨hslots, fun _ => addKeyReport_sets_bit hbit s.report⟩
  · intro hkc hslot
    rw [State.setPort_report, addKey_report, addKeyReport_of_slot hkc hslot]
    exact ⟨rfl, occupied_insert hcompact hkc⟩

/-- Settles O45, by what the keycode is: 0, a modifier, or a key for the slots. -/
theorem removeKeyResult : Obligations.RemoveKeyResult := by
  intro kc s hcompact
  refine ⟨_, exec_removeKey kc s, rfl, removeKeyReport_lastSendOk s.cfg kc s.report,
    removeKeyReport_compact s.cfg kc hcompact, ?_, ?_, ?_⟩
  · rintro rfl
    rfl
  · intro b hbit
    have hslots := congrArg Report.slots (removeKeyReport_of_modifier hbit s.report)
    exact ⟨hslots, fun _ => removeKeyReport_clears_only_bit hbit s.report⟩
  · intro hkc hslot
    rw [State.setPort_report, removeKey_report, removeKeyReport_of_slot hkc hslot]
    exact ⟨rfl, occupied_remove s.report.slots kc⟩

/-- Settles O46: both commands leave the report marked with its change. -/
theorem dirtyMarksExactlyChanges : Obligations.DirtyMarksExactlyChanges := by
  rintro kc s i (rfl | rfl)
  · obtain ⟨after, hmarked⟩ := addKeyReport_marks_change s.cfg kc s.report
    refine ⟨_, exec_addKey kc s, ?_⟩
    rw [State.setPort_report, addKey_report, hmarked]
    exact markChange_dirty s.report after
  · obtain ⟨after, hmarked⟩ := removeKeyReport_marks_change s.cfg kc s.report
    refine ⟨_, exec_removeKey kc s, ?_⟩
    rw [State.setPort_report, removeKey_report, hmarked]
    exact markChange_dirty s.report after

/-- Settles O47: the slots are full, so every key moves down by one, and slot 0's key stood nowhere else. -/
theorem seventhKeyEvictsTheOldest : Obligations.SeventhKeyEvictsTheOldest := by
  intro kc s hkc hslot hoccupied hnew hone
  have hfull := (zero_notMem_toList_iff _).mpr hoccupied
  have hslots : (addKeyReport s.cfg kc s.report).slots = s.report.slots.insert kc :=
    congrArg Report.slots (addKeyReport_of_slot hkc hslot s.report)
  have hlast : (addKeyReport s.cfg kc s.report).slots.s5 = kc := by rw [hslots, insert_of_full hfull]
  refine ⟨_, _, exec_addKey kc s, hlast, ?_, length_occupied_le _, exec_serialize _, rfl, hlast⟩
  rw [State.setPort_report, addKey_report, hslots]
  exact evicted_notMem_insert hfull hnew hone

/-- Settles O50: what ADD_KEY writes into the empty report, REMOVE_KEY takes back. -/
theorem addRemoveRoundTrip : Obligations.AddRemoveRoundTrip := by
  intro kc s hempty
  have hsame := removeKeyReport_addKeyReport_empty hempty s.cfg kc
  exact ⟨_, _, _, exec_addKey kc s, exec_removeKey kc _, exec_serialize _, hsame,
    serialize_of_empty s.cfg (emptyReport_of_sameKeys hempty hsame)⟩

/-- Settles O51: the one event is the SEND, and the report keeps its keys. -/
theorem transmitResult : Obligations.TransmitResult := by
  refine ⟨rfl, fun s => ?_⟩
  have acts := (transmit_acts s).setPort (if s.env.nextAccepted then ⟨0x00#8, []⟩ else ⟨0x03#8, []⟩)
  exact ⟨_, exec_transmit s, transmit_cfg s, transmit_snap s, transmit_layer s, transmit_dev s, transmit_seq s,
    acts.wakeMoves, transmit_report s, acts.grows, transmit_sendAnswers s, rfl⟩

/-- Settles O48: the flag is set exactly when the report is not empty. -/
theorem isAnyResult : Obligations.IsAnyResult := by
  refine ⟨rfl, fun s => ⟨_, exec_isAny s, fun hany => ?_, fun hempty => ?_⟩⟩
  · rw [(anyPressed_iff s.report).mpr hany]
    rfl
  · obtain ⟨hmods, hslots⟩ := hempty
    have hnone : anyPressed s.report = false := by
      simp [Bool.eq_false_iff, anyPressed_iff, hmods, hslots]
    rw [hnone]
    rfl

/-- Settles O49: the slots follow the three leading bytes. -/
theorem serializeResult : Obligations.SerializeResult := by
  refine ⟨rfl, fun s => ⟨_, exec_serialize s, rfl, rfl, rfl, rfl, fun i => ?_⟩⟩
  rw [Nat.add_comm]
  rfl

end Sys2Proof.Machine
end

section
/-! SUPPORT. What a pass does (spec/46_pipeline_control.md R263): its events, which hold no SEND, the registers it leaves
alone, and the snapshots it ends with. -/

namespace Sys2Proof.Machine

open Sys2Proof.Claims

/-! ### A run that may enable the interrupt: growth that can be continued -/

/-- `t` follows `s` by the block's own events `own`. Unlike `Acts` it asks nothing of the interrupt enable, which a pass
sets again after its scan (R157), so that any two runs compose. -/
structure Runs (s t : State) (own : List Event) : Prop where
  grows : Grows s t own
  edges : s.env.edges = [] → t.env.edges = []

namespace Runs

theorem of_acts {s t : State} {own : List Event} (h : Acts s t own) : Runs s t own :=
  ⟨h.grows, h.edges⟩

/-- A register update that touches neither the trace nor the environment. -/
theorem of_eq {s t : State} (htrace : t.trace = s.trace) (henv : t.env = s.env) : Runs s t [] :=
  ⟨⟨[], by simp [htrace], rfl, fun _ => rfl⟩, fun hs => by rw [henv, hs]⟩

theorem trans {s t u : State} {a b : List Event} (h : Runs s t a) (g : Runs t u b) : Runs s u (a ++ b) := by
  obtain ⟨⟨m, htrace, hown, hquiet⟩, hedges⟩ := h
  obtain ⟨⟨m', htrace', hown', hquiet'⟩, hedges'⟩ := g
  refine ⟨⟨m ++ m', ?_, ?_, fun hs => ?_⟩, fun hs => hedges' (hedges hs)⟩
  · rw [htrace', htrace, List.append_assoc]
  · rw [List.filter_append, hown, hown']
  · rw [hquiet hs, hquiet' (hedges hs)]

end Runs

/-- The new trace entries of a kind that is no interrupt entry are the block's own events of that kind. -/
theorem Grows.filter {s t : State} {own : List Event} (h : Grows s t own) {p : Event → Bool}
    (hp : ∀ k, p (.irq k) = false) : ∃ more, t.trace = s.trace ++ more ∧ more.filter p = own.filter p := by
  obtain ⟨more, htrace, hown, -⟩ := h
  refine ⟨more, htrace, ?_⟩
  rw [← hown, List.filter_filter]
  refine List.filter_congr fun e _ => ?_
  cases e with
  | irq k => simp [hp k]
  | _ => simp [isIrq]

theorem ActsOnly.filter_eq_nil {P : Event → Prop} {s t : State} (h : ActsOnly P s t) {p : Event → Bool}
    (hp : ∀ e, P e → p e = false) : ∃ own, Runs s t own ∧ own.filter p = [] := by
  obtain ⟨own, acts, hown⟩ := h
  exact ⟨own, .of_acts acts, List.filter_eq_nil_iff.mpr fun e he => by simp [hp e (hown e he)]⟩

/-- A fold of operations whose events all satisfy `P`, none of which enables the interrupt. -/
theorem ActsOnly.foldl {α : Type} {P : Event → Prop} {f : State → α → State} (hf : ∀ s a, ActsOnly P s (f s a))
    (hm : ∀ s a, s.dev.irqEn = false → (f s a).dev.irqEn = false) (l : List α) (s : State) :
    ActsOnly P s (l.foldl f s) := by
  induction l generalizing s with
  | nil => exact .refl P s
  | cons a l ih => exact (hf s a).trans (ih _) (hm s a)

/-! ### The events of a scan: bus calls and settle waits (R153) -/

/-- A bus call or the settle wait. -/
def ScanEvent (e : Event) : Prop :=
  isBus e = true ∨ e = .wait .settle

theorem ScanEvent.not_key_not_send {e : Event} (h : ScanEvent e) : isKey e = false ∧ isSend e = false := by
  obtain hbus | rfl := h
  · cases e with
    | busW | busR => exact ⟨rfl, rfl⟩
    | _ => cases hbus
  · exact ⟨rfl, rfl⟩

theorem scanColumn_scanEvents (c : Chip) (s : State) (i : Nat) : ActsOnly ScanEvent s (scanColumn c s i) := by
  by_cases hselect : s.env.nextStatus = 0#8
  · by_cases haddress : s.env.dropStatus.nextStatus = 0#8
    · exact ⟨_, (scanColumn_effect_of_read hselect haddress c i).acts, by simp [columnTrace, ScanEvent, isBus]⟩
    · exact ⟨_, (scanColumn_effect_of_not_addressed hselect haddress c i).acts, by simp [ScanEvent, isBus]⟩
  · exact ⟨_, (scanColumn_effect_of_not_selected hselect c i).acts, by simp [ScanEvent, isBus]⟩

theorem scanChip_scanEvents (c : Chip) (s : State) : ActsOnly ScanEvent s (scanChip c s) := by
  unfold scanChip
  split
  · exact (ActsOnly.foldl (scanColumn_scanEvents c) (by simp) _ s).trans
      ⟨_, park_acts c _ _, by simp [ScanEvent, isBus]⟩ (by simp)
  · exact .refl _ s

theorem scanBody_scanEvents (s : State) : ActsOnly ScanEvent s (scanBody s) :=
  (((ActsOnly.of_silent (beginScan_acts s)).trans (scanChip_scanEvents .chip0 _) (by simp)).trans
    (scanChip_scanEvents .chip1 _) (by simp)).trans (.of_silent (endScan_acts _)) (by simp)

/-! ### The events of DIFF: KEY and ACT (R202, R220) -/

/-- A KEY event or an ACT event. -/
def DiffEvent (e : Event) : Prop :=
  isKey e = true ∨ ∃ id edge, e = .act id edge

theorem DiffEvent.not_send {e : Event} (h : DiffEvent e) : isSend e = false := by
  obtain hkey | ⟨id, edge, rfl⟩ := h
  · cases e with
    | key => rfl
    | _ => cases hkey
  · rfl

theorem dispatchEvent_diffEvents (row col : Nat) (pressed : Bool) (s : State) :
    ActsOnly DiffEvent s (dispatchEvent row col pressed s) := by
  cases hfind : s.cfg.fkFind row col with
  | none =>
    rw [dispatchEvent_of_none hfind]
    exact .of_silent ((Acts.refl s).congr (by simp) (by simp))
  | some e =>
    cases haction : e.action with
    | layerSwitch =>
      rw [dispatchEvent_of_layerSwitch hfind haction]
      exact .of_silent ((Acts.refl s).congr (by simp) (by simp [layerSwitch]))
    | other id =>
      rw [dispatchEvent_of_other hfind haction]
      exact ⟨_, emit_acts _ s rfl, by simp [DiffEvent]⟩

theorem emitAndDispatch_diffEvents (s : State) (e : KeyEvent) : ActsOnly DiffEvent s (emitAndDispatch s e) :=
  ActsOnly.trans ⟨_, emit_acts (keyEvent e) s rfl, by simp [DiffEvent, keyEvent, isKey]⟩
    (dispatchEvent_diffEvents _ _ _ _) (by simp)

theorem diffBody_diffEvents (s : State) : ActsOnly DiffEvent s (diffBody s) := by
  obtain ⟨own, acts, hown⟩ := ActsOnly.foldl emitAndDispatch_diffEvents (by simp)
    (edgeDispatch s.cfg.cols s.snap.stablePrev s.snap.stable) s
  exact ⟨own, acts.congr (by simp) (by simp [diffBody]), hown⟩

/-! ### No SEND in a pass -/

/-- `t` follows `s` by events of the block of which none is a SEND. -/
def RunsUnsent (s t : State) : Prop :=
  ∃ own, Runs s t own ∧ own.filter isSend = []

theorem RunsUnsent.trans {s t u : State} (h : RunsUnsent s t) (g : RunsUnsent t u) : RunsUnsent s u := by
  obtain ⟨a, ha, hsend⟩ := h
  obtain ⟨b, hb, hsend'⟩ := g
  exact ⟨a ++ b, ha.trans hb, by rw [List.filter_append, hsend, hsend']; rfl⟩

theorem RunsUnsent.of_eq {s t : State} (htrace : t.trace = s.trace) (henv : t.env = s.env) : RunsUnsent s t :=
  ⟨[], .of_eq htrace henv, rfl⟩

theorem passBody_unsent (s : State) : RunsUnsent s (passBody s) := by
  have scan : RunsUnsent s (scanBody s) := (scanBody_scanEvents s).filter_eq_nil fun _ he => he.not_key_not_send.2
  have filter : RunsUnsent (scanBody s) (filterBody (scanBody s)) := .of_eq rfl rfl
  exact (scan.trans filter).trans ((diffBody_diffEvents _).filter_eq_nil fun _ => DiffEvent.not_send)

/-! ### The wait and the pass count before a requeue pass (R262) -/

/-- Where a requeue pass begins: the inter-cycle delay over, PASS_COUNT counted up (R262). -/
def requeueStart (s : State) : State :=
  setPassCount (s.seq.passCount + 1) (waitFor .debounce s)

theorem requeuePass_eq (s : State) : requeuePass s = passBody (requeueStart s) := by
  simp [requeuePass, requeueStart]

@[simp] theorem requeueStart_cfg (s : State) : (requeueStart s).cfg = s.cfg := by
  simp [requeueStart, setPassCount]

@[simp] theorem requeueStart_snap (s : State) : (requeueStart s).snap = s.snap := by
  simp [requeueStart, setPassCount]

@[simp] theorem requeueStart_layer (s : State) : (requeueStart s).layer = s.layer := by
  simp [requeueStart, setPassCount]

@[simp] theorem requeueStart_report (s : State) : (requeueStart s).report = s.report := by
  simp [requeueStart, setPassCount]

@[simp] theorem requeueStart_dev (s : State) : (requeueStart s).dev = s.dev := by
  simp [requeueStart, setPassCount]

@[simp] theorem requeueStart_sendAnswers (s : State) : (requeueStart s).env.sendAnswers = s.env.sendAnswers := by
  simp [requeueStart, setPassCount]

theorem requeueStart_acts (s : State) : Acts s (requeueStart s) [.wait .debounce] :=
  (waitFor_acts .debounce s).congr (by simp) (by simp [requeueStart, setPassCount])

theorem requeuePass_unsent (s : State) : RunsUnsent s (requeuePass s) := by
  rw [requeuePass_eq]
  exact RunsUnsent.trans ⟨_, .of_acts (requeueStart_acts s), rfl⟩ (passBody_unsent _)

/-! ### The registers after a pass -/

/-- The interrupt is enabled after a pass exactly when the block is initialized (R157). -/
theorem passBody_dev (s : State) : (passBody s).dev = { s.dev with irqEn := s.dev.initialized } := by
  simp [passBody]

theorem passBody_sendAnswers (s : State) : (passBody s).env.sendAnswers = s.env.sendAnswers := by
  simp [passBody, filterBody]

/-- A pass filters what its scan read, and latches STABLE (R182, R202). -/
theorem passBody_snap (s : State) :
    (passBody s).snap =
      { filterRegs s.cfg (scanBody s).snap with stablePrev := (filterRegs s.cfg (scanBody s).snap).stable } := by
  simp [passBody, filterBody]

/-- The snapshots as a pass leaves them: STABLE latched, PENDING telling whether RAW is yet to be confirmed (R185). -/
structure PassEnd (r : SnapRegs) : Prop where
  latched : r.stablePrev = r.stable
  pending_iff : r.pending = true ↔ r.stable ≠ r.raw

theorem passBody_passEnd (s : State) : PassEnd (passBody s).snap := by
  rw [passBody_snap]
  exact ⟨rfl, filterRegs_pending_iff s.cfg (scanBody s).snap⟩

theorem passBody_hist_one (s : State) : histAt (passBody s).snap.hist 1 = (passBody s).snap.raw := by
  rw [passBody_snap]
  exact histAt_filterRegs_one s.cfg (scanBody s).snap

/-- A second equal read is confirmed (R183). -/
theorem passBody_stable_of_same_read {s : State} (hpolicy : s.cfg.policy = .settleConfirm)
    (hread : (passBody s).snap.raw = histAt s.snap.hist 1) : (passBody s).snap.stable = (passBody s).snap.raw := by
  rw [passBody_snap] at hread ⊢
  exact (filterRegs_stable_of_settleConfirm hpolicy _).trans
    (if_pos (hread.trans (congrArg (histAt · 1) (scanBody_snap_hist s).symm)))

/-! ### The Key Events of a pass -/

/-- The Key Events of a pass: the differences between STABLE_PREV as it was and STABLE as the pass leaves it (R202). -/
def passEvents (s : State) : List KeyEvent :=
  edgeDispatch s.cfg.cols s.snap.stablePrev (passBody s).snap.stable

/-- They are the ones DIFF finds after the filter step (R263). -/
theorem edgeDispatch_filterBody (s : State) :
    edgeDispatch (filterBody (scanBody s)).cfg.cols (filterBody (scanBody s)).snap.stablePrev
      (filterBody (scanBody s)).snap.stable = passEvents s := by
  simp [passEvents, passBody_snap, filterBody, filterRegs]

theorem passBody_keys (s : State) :
    ∃ own, Runs s (passBody s) own ∧ own.filter isKey = (passEvents s).map keyEvent := by
  obtain ⟨scan, hscan, hnone⟩ := (scanBody_scanEvents s).filter_eq_nil fun _ he => he.not_key_not_send.1
  obtain ⟨diff, hdiff, hkeys⟩ := diffBody_keys (filterBody (scanBody s))
  have filter : Runs (scanBody s) (filterBody (scanBody s)) [] := .of_eq rfl rfl
  refine ⟨_, hscan.trans (filter.trans (.of_acts hdiff)), ?_⟩
  rw [List.nil_append, List.filter_append, hnone, hkeys, edgeDispatch_filterBody]
  rfl

/-- But for the latch of STABLE, a pass ends with the dispatch of its Key Events. -/
theorem passBody_eq_foldl (s : State) :
    passBody s = ((passEvents s).foldl emitAndDispatch (filterBody (scanBody s))).setSnap (passBody s).snap := by
  rw [← edgeDispatch_filterBody]
  rfl

/-- LAYER and the report after a pass are those of the DISPATCH commands of its Key Events, run from any state with the
same LAYER and report (R202, R215). -/
theorem passBody_dispatches {s u : State} (hus : SameKeyState u s) (hrows : ∀ e ∈ passEvents s, e.row < s.cfg.rows) :
    ∃ v, dispatchAll (passEvents s) u = .next v ∧ (passBody s).layer = v.layer ∧ (passBody s).report = v.report := by
  have filtered : SameKeyState u (filterBody (scanBody s)) :=
    hus.trans ⟨by simp [filterBody], by simp [filterBody], by simp [filterBody]⟩
  have hmatrix : ∀ e ∈ passEvents s, InMatrix u.cfg e := by
    rw [← hus.cfg]
    exact fun e he => inMatrix_of_mem_edgeDispatch he (hrows e he)
  obtain ⟨v, hdispatch, hsame⟩ := dispatchAll_sameKeyState filtered hmatrix
  refine ⟨v, hdispatch, ?_⟩
  rw [passBody_eq_foldl, State.setSnap_layer, State.setSnap_report]
  exact ⟨hsame.layer, hsame.report⟩

/-! ### STATUS and RESULT play no part (R45) -/

theorem diffBody_setPort (s : State) (v : PortRegs) : diffBody (s.setPort v) = (diffBody s).setPort v := by
  simp only [diffBody, State.setPort_cfg, State.setPort_snap, dispatchEvents_setPort]
  rfl

theorem filterBody_setPort (s : State) (v : PortRegs) : filterBody (s.setPort v) = (filterBody s).setPort v := rfl

end Sys2Proof.Machine
end

section
/-! SUPPORT. CYCLE (spec/46_pipeline_control.md R261): its passes as an iteration, what they leave alone, and its send
step, with the registers and events of the whole. -/

namespace Sys2Proof.Machine

open Sys2Proof.Claims

/-! ### The requeue loop (R262) -/

/-- The requeue loop is some number of requeue passes: each follows PENDING 1, and fewer than allowed end at
PENDING 0. -/
theorem requeueLoop_eq_iterate (n : Nat) (s : State) :
    ∃ m ≤ n, requeueLoop n s = requeuePass^[m] s ∧ (∀ j < m, (requeuePass^[j] s).snap.pending = true) ∧
      (m < n → (requeueLoop n s).snap.pending = false) := by
  induction n generalizing s with
  | zero => exact ⟨0, le_rfl, rfl, by simp, by simp⟩
  | succ n ih =>
    cases hpending : s.snap.pending with
    | false =>
      have stop : requeueLoop (n + 1) s = s := by simp [requeueLoop, hpending]
      exact ⟨0, Nat.zero_le _, stop, by simp, fun _ => by rw [stop, hpending]⟩
    | true =>
      have again : requeueLoop (n + 1) s = requeueLoop n (requeuePass s) := by simp [requeueLoop, hpending]
      obtain ⟨m, hm, hloop, hbefore, hend⟩ := ih (requeuePass s)
      refine ⟨m + 1, Nat.succ_le_succ hm, again.trans hloop, fun j hj => ?_,
        fun hlt => again ▸ hend (Nat.lt_of_succ_lt_succ hlt)⟩
      cases j with
      | zero => exact hpending
      | succ j => exact hbefore j (Nat.lt_of_succ_lt_succ hj)

theorem iterate_requeuePass_passCount (m : Nat) (s : State) :
    (requeuePass^[m] s).seq.passCount = s.seq.passCount + m := by
  induction m generalizing s with
  | zero => rfl
  | succ m ih => rw [Function.iterate_succ_apply, ih, requeuePass_passCount, Nat.add_right_comm, Nat.add_assoc]

/-- The first pass of a CYCLE (R261). -/
def firstPass (s : State) : State :=
  passBody (setPassCount 0 (setPhase .pass s))

/-- CYCLE's passes counted by PASS_COUNT (R261, R262). -/
theorem cyclePasses_eq_iterate (s : State) :
    (cyclePasses s).seq.passCount ≤ s.cfg.requeuePasses ∧
      cyclePasses s = requeuePass^[(cyclePasses s).seq.passCount] (firstPass s) ∧
      (∀ m < (cyclePasses s).seq.passCount, (requeuePass^[m] (firstPass s)).snap.pending = true) ∧
      ((cyclePasses s).seq.passCount < s.cfg.requeuePasses → (cyclePasses s).snap.pending = false) := by
  obtain ⟨n, hn, hloop, hbefore, hend⟩ := requeueLoop_eq_iterate s.cfg.requeuePasses (firstPass s)
  have hpasses : cyclePasses s = requeuePass^[n] (firstPass s) := hloop
  have hcount : (cyclePasses s).seq.passCount = n := by
    rw [hpasses, iterate_requeuePass_passCount, firstPass, passBody_seq_passCount]
    exact Nat.zero_add n
  rw [hcount]
  exact ⟨hn, hpasses, hbefore, hend⟩

/-- What the first pass leaves and every requeue pass keeps, CYCLE's passes leave. -/
theorem cyclePasses_induction {P : State → Prop} {s : State} (first : P (firstPass s))
    (again : ∀ u, P u → P (requeuePass u)) : P (cyclePasses s) := by
  obtain ⟨-, hpasses, -⟩ := cyclePasses_eq_iterate s
  rw [hpasses]
  exact Function.Iterate.rec P first again _

theorem cyclePasses_unsent (s : State) : RunsUnsent s (cyclePasses s) :=
  cyclePasses_induction (P := RunsUnsent s)
    ((RunsUnsent.of_eq rfl rfl : RunsUnsent s (setPassCount 0 (setPhase .pass s))).trans (passBody_unsent _))
    fun u h => h.trans (requeuePass_unsent u)

theorem cyclePasses_dev (s : State) : (cyclePasses s).dev = { s.dev with irqEn := s.dev.initialized } :=
  cyclePasses_induction (P := fun u => u.dev = { s.dev with irqEn := s.dev.initialized }) (passBody_dev _)
    fun u h => by simp [requeuePass_eq, passBody_dev, h]

theorem cyclePasses_sendAnswers (s : State) : (cyclePasses s).env.sendAnswers = s.env.sendAnswers :=
  cyclePasses_induction (P := fun u => u.env.sendAnswers = s.env.sendAnswers) (passBody_sendAnswers _)
    fun u h => by simp [requeuePass_eq, passBody_sendAnswers, h]

theorem cyclePasses_passEnd (s : State) : PassEnd (cyclePasses s).snap :=
  cyclePasses_induction (P := fun u => PassEnd u.snap) (passBody_passEnd _) fun _ _ => passBody_passEnd _

/-! ### The send step (R265) -/

theorem sendStep_of_dirty {s : State} (h : s.report.dirty = true) :
    sendStep s = (if s.env.nextAccepted then 0x00#8 else 0x03#8, (transmit s).2) := by
  rw [sendStep, if_pos h]
  rfl

theorem sendStep_of_clean {s : State} (h : s.report.dirty = false) : sendStep s = (0x00#8, s) := by
  rw [sendStep, h]
  rfl

theorem sendStep_snap (s : State) : (sendStep s).2.snap = s.snap := by
  unfold sendStep; split <;> simp

theorem sendStep_layer (s : State) : (sendStep s).2.layer = s.layer := by
  unfold sendStep; split <;> simp

/-- The keys stay, whether the report is sent or not (R245). -/
theorem sendStep_sameKeys (s : State) : SameKeys s.report (sendStep s).2.report := by
  unfold sendStep; split <;> simp [SameKeys]

theorem sendStep_dirty (s : State) : (sendStep s).2.report.dirty = false := by
  cases h : s.report.dirty with
  | true => simp [sendStep_of_dirty h]
  | false => simpa [sendStep_of_clean h] using h

theorem sendStep_status (s : State) :
    (sendStep s).1 = if s.report.dirty = true ∧ s.env.nextAccepted = false then 0x03#8 else 0x00#8 := by
  cases h : s.report.dirty with
  | true => cases haccepted : s.env.nextAccepted <;> simp [sendStep_of_dirty h, haccepted]
  | false => simp [sendStep_of_clean h]

theorem sendStep_runs (s : State) : Runs s (sendStep s).2 (sentIfDirty s.cfg s) := by
  cases h : s.report.dirty with
  | true =>
    rw [sendStep_of_dirty h, sentIfDirty, if_pos h]
    exact .of_acts (transmit_acts s)
  | false =>
    rw [sendStep_of_clean h, sentIfDirty, h]
    exact .of_eq rfl rfl

theorem sentIfDirty_filter (p : Params) (s : State) : (sentIfDirty p s).filter isSend = sentIfDirty p s := by
  unfold sentIfDirty
  split <;> rfl

/-! ### CYCLE whole (R261) -/

theorem exec_cycle (s : State) :
    exec .cycle s = .next ((cycleBody s).setPort ⟨(sendStep (setPhase .send (cyclePasses s))).1, []⟩) := rfl

theorem cycleBody_report (s : State) : (cycleBody s).report = (cycleSent s).report := by
  simp [cycleBody_eq, setPhase]

theorem cycleBody_snap (s : State) : (cycleBody s).snap = (cyclePasses s).snap := by
  simp [cycleBody, setPhase, sendStep_snap]

theorem cycleBody_layer (s : State) : (cycleBody s).layer = (cyclePasses s).layer := by
  simp [cycleBody, setPhase, sendStep_layer]

theorem cycleBody_sendAnswers (s : State) : (cycleBody s).env.sendAnswers = (cycleSent s).env.sendAnswers := by
  simp [cycleBody_eq, setPhase]

theorem wakeDecrement_runs (s : State) : Runs s (wakeDecrement s) [] :=
  (Runs.of_acts (interleave_acts s)).trans (.of_eq rfl rfl : Runs (interleave s) (wakeDecrement s) [])

/-- After its passes CYCLE makes the SEND of a dirty report, then waits (R265, R268). -/
theorem cyclePasses_runs_cycleBody (s : State) :
    Runs (cyclePasses s) (cycleBody s) (sentIfDirty s.cfg (cyclePasses s) ++ [.wait .debounce]) := by
  have start : Runs (cyclePasses s) (setPhase .send (cyclePasses s)) [] := .of_eq rfl rfl
  have send : Runs (setPhase .send (cyclePasses s)) (cycleSent s) (sentIfDirty s.cfg (cyclePasses s)) :=
    cyclePasses_cfg s ▸ sendStep_runs (setPhase .send (cyclePasses s))
  have finish : Runs (cycleSent s) (setPhase .finish (cycleSent s)) [] := .of_eq rfl rfl
  have decrement := finish.trans (wakeDecrement_runs (setPhase .finish (cycleSent s)))
  have wait := Runs.of_acts (waitFor_acts .debounce (wakeDecrement (setPhase .finish (cycleSent s))))
  have idle : Runs (waitFor .debounce (wakeDecrement (setPhase .finish (cycleSent s)))) (cycleBody s) [] :=
    .of_eq rfl rfl
  exact (start.trans send).trans (decrement.trans (wait.trans idle))

/-- With no edge scheduled, WAKE reaches the decrement unchanged (R264). -/
theorem cycleBody_wake_of_no_edges {s : State} (h : s.env.edges = []) :
    (cycleBody s).wake = if s.wake = 0#32 then 0#32 else s.wake - 1#32 := by
  have start : Quiet s (setPassCount 0 (setPhase .pass s)) := .of_eq rfl rfl rfl
  have quiet := (start.trans (.of_actsSome ⟨_, beginScan_acts _⟩)).trans (beginScan_quiet_cycleSent s)
  obtain ⟨hwake, -⟩ := cycleBody_of_no_edges (quiet.edges h)
  rw [hwake, quiet.wake h]

end Sys2Proof.Machine
end

section
/-! PROOFS. The pipeline controller (spec/46_pipeline_control.md): interrupt edges between commands, the pass, the
requeue passes, and CYCLE. -/

namespace Sys2Proof.Machine

open Sys2Proof.Claims

theorem step_of_edge {s : State} {rest : List Input} (h : s.env.inputs = .edge :: rest) :
    step s = .next (irqEdge (withInputs s rest)) := by
  simp [step, dropInput, withInputs, h]

/-- Settles O8, by what one edge can do. -/
theorem interruptEdgeEffect : Obligations.InterruptEdgeEffect := by
  intro s rest h
  rw [step_of_edge h]
  constructor
  · intro hen
    exact congrArg Host.Outcome.next (if_pos hen)
  · intro hen
    exact congrArg Host.Outcome.next (if_neg (Bool.eq_false_iff.mp hen))

/-- Settles O56: neither the filter nor DIFF reads STATUS and RESULT. -/
theorem scanFilterDiffIsOnePass : Obligations.ScanFilterDiffIsOnePass := by
  intro s
  refine ⟨_, _, _, rfl, rfl, rfl, ?_⟩
  simp only [complete, filterBody_setPort, diffBody_setPort, State.setPort_setPort]
  rfl

/-- Settles O54: the number of further passes is PASS_COUNT. -/
theorem requeueUntilSettledOrBound : Obligations.RequeueUntilSettledOrBound := by
  intro s
  obtain ⟨hbound, hpasses, hbefore, hend⟩ := cyclePasses_eq_iterate s
  exact ⟨_, hbound, hpasses, rfl, hbefore, hend⟩

/-- Settles O55: HIST[1] is the last pass's read, so the second equal read becomes STABLE, and STABLE_PREV still holds
the old one. -/
theorem requeuePassConfirmsHeldChange : Obligations.RequeuePassConfirmsHeldChange := by
  intro s hpolicy one two hsame
  have htwo : two = passBody (requeueStart one) := requeuePass_eq one
  have hcfg : (requeueStart one).cfg = s.cfg := (requeueStart_cfg one).trans (passBody_cfg s)
  have hread : (passBody (requeueStart one)).snap.raw = histAt (requeueStart one).snap.hist 1 := by
    rw [requeueStart_snap, passBody_hist_one s, ← htwo]
    exact hsame
  have hprev : (requeueStart one).snap.stablePrev = one.snap.stable := by
    rw [requeueStart_snap]
    exact (passBody_passEnd s).latched
  have passEnd : PassEnd two.snap := htwo ▸ passBody_passEnd _
  have hraw : two.snap.stable = two.snap.raw :=
    htwo ▸ passBody_stable_of_same_read (s := requeueStart one) (by rw [hcfg]; exact hpolicy) hread
  have hstable : two.snap.stable = one.snap.raw := hraw.trans hsame
  have hpending : two.snap.pending = false :=
    Bool.eq_false_iff.mpr fun hp => passEnd.pending_iff.mp hp hraw
  obtain ⟨own, hruns, hkeys⟩ := passBody_keys (requeueStart one)
  have dispatched := passBody_dispatches (s := requeueStart one) (u := one) ⟨by simp, by simp, by simp⟩
  have hevents : passEvents (requeueStart one) = edgeDispatch s.cfg.cols one.snap.stable one.snap.raw := by
    rw [passEvents, hcfg, hprev, ← htwo, hstable]
  rw [hevents] at hkeys dispatched
  rw [hcfg, ← htwo] at dispatched
  obtain ⟨more, htrace, hmore⟩ := ((Runs.of_acts (requeueStart_acts one)).trans hruns).grows.filter
    (p := isKey) fun _ => rfl
  exact ⟨hpending, hstable, passEnd.latched.trans hstable,
    ⟨more, htwo ▸ htrace, hmore.trans hkeys⟩, dispatched⟩

/-- Settles O53: the passes hold no SEND and take no answer, and the send step is CYCLE's only one. -/
theorem cycleSendsExactlyWhenDirty : Obligations.CycleSendsExactlyWhenDirty := by
  intro s c
  obtain ⟨own, hpasses, hunsent⟩ := cyclePasses_unsent s
  obtain ⟨more, htrace, hmore⟩ := (hpasses.trans (cyclePasses_runs_cycleBody s)).grows.filter (p := isSend) fun _ => rfl
  have hsends : more.filter isSend = sentIfDirty s.cfg c := by
    rw [hmore, List.filter_append, hunsent, List.filter_append, sentIfDirty_filter]
    exact List.append_nil _
  refine ⟨_, more, exec_cycle s, htrace, hsends, cyclePasses_sendAnswers s, ?_, fun hclean => ?_, fun hdirty => ?_⟩
  · exact (congrArg Report.dirty (cycleBody_report s)).trans (sendStep_dirty _)
  · have send := sendStep_of_clean (s := setPhase .send c) hclean
    have sent : cycleSent s = setPhase .send c := congrArg Prod.snd send
    exact ⟨(cycleBody_report s).trans (by rw [sent]; rfl), by rw [send]; rfl,
      (cycleBody_sendAnswers s).trans (by rw [sent]; exact cyclePasses_sendAnswers s)⟩
  · have send := sendStep_of_dirty (s := setPhase .send c) hdirty
    have sent : cycleSent s = (transmit (setPhase .send c)).2 := congrArg Prod.snd send
    refine ⟨(cycleBody_report s).trans (by rw [sent, transmit_report]; rfl), ?_,
      (cycleBody_sendAnswers s).trans ?_⟩
    · rw [send]
      exact apply_ite (fun st => (⟨st, []⟩ : PortRegs)) _ _ _
    · rw [sent, transmit_sendAnswers]
      exact congrArg List.tail (cyclePasses_sendAnswers s)

/-- Settles O52, register by register: the passes leave the snapshots, LAYER and the keys, the send step DIRTY and
STATUS, and what follows it WAKE. -/
theorem cycleResult : Obligations.CycleResult := by
  refine ⟨rfl, ?_⟩
  intro s c
  obtain ⟨own, hpasses, -⟩ := cyclePasses_unsent s
  obtain ⟨hbound, -, -, hsettled⟩ := cyclePasses_eq_iterate s
  have hsnap : (cycleBody s).snap = c.snap := cycleBody_snap s
  have hseq : (cycleBody s).seq = { c.seq with pipePhase := .idle } := cycleBody_seq s
  have hcount : (cycleBody s).seq.passCount = c.seq.passCount := by rw [hseq]
  have passEnd : PassEnd (cycleBody s).snap := hsnap ▸ cyclePasses_passEnd s
  have sent := sendStep_sameKeys (setPhase .send c)
  have grows := (hpasses.trans (cyclePasses_runs_cycleBody s)).grows
  refine ⟨_, own, exec_cycle s, cycleBody_cfg s, hsnap, cycleBody_layer s, ?_, ?_, passEnd.latched,
    passEnd.pending_iff, (cycleBody_dev s).trans (cyclePasses_dev s), cycleBody_wake_of_no_edges, ?_, ?_, hcount, ?_, ?_,
    ?_, hpasses.grows, ?_⟩
  · rw [State.setPort_report, cycleBody_report]
    exact sent
  · rw [State.setPort_report, cycleBody_report]
    exact sendStep_dirty _
  · exact (cycleBody_seqOk s).scan.scan_idle
  · exact (cycleBody_seqOk s).pipe_idle
  · exact (cycleBody_seqOk s).pass_count
  · intro hpending
    rw [State.setPort_snap, hsnap] at hpending
    rw [State.setPort_seq, hcount]
    refine hbound.antisymm (Nat.le_of_not_lt fun hlt => ?_)
    rw [hsettled hlt] at hpending
    cases hpending
  · rw [sendStep_status]
    exact apply_ite (fun st => (⟨st, []⟩ : PortRegs)) _ _ _
  · rw [List.append_assoc]
    exact grows

end Sys2Proof.Machine
end

section
/-! SUPPORT. What every step does to the trace and the parameters (spec/10_state.md R49, R50), and what each class of
commands reports in STATUS and RESULT (spec/60_exceptions.md R281, R286). -/

namespace Sys2Proof.Machine

open Sys2Proof.Claims

/-! ### The trace and the parameters through one step (R49, R50, R280) -/

/-- No stop (R280): a next state, whose trace starts with the old one and whose parameters are the old ones. -/
def CompletesFrom (s : State) (o : Host.Outcome State Fault Refusal) : Prop :=
  ∃ t more, o = .next t ∧ t.trace = s.trace ++ more ∧ t.cfg = s.cfg

/-- CYCLE enables the interrupt again after each scan, so its growth is composed by `Runs`; every other command is one
stretch of `Acts`. -/
theorem execBody_runs (i : Instr) (s : State) : ∃ own, Runs s (execBody i s) own := by
  by_cases hcycle : i = .cycle
  · subst hcycle
    obtain ⟨own, hpasses, -⟩ := cyclePasses_unsent s
    exact ⟨_, hpasses.trans (cyclePasses_runs_cycleBody s)⟩
  · obtain ⟨own, acts⟩ := execBody_actsSome s hcycle
    exact ⟨own, .of_acts acts⟩

theorem exec_completesFrom (i : Instr) (s : State) : CompletesFrom s (exec i s) := by
  obtain ⟨v, hexec⟩ := exec_eq_execBody i s
  obtain ⟨own, ⟨more, htrace, -⟩, -⟩ := execBody_runs i s
  exact ⟨_, more, hexec, htrace, execBody_cfg i s⟩

theorem runWord_completesFrom (w : Word) (s : State) : CompletesFrom s (runWord w s) := by
  cases hdec : decode s.cfg w with
  | ok i =>
    rw [runWord_of_decode hdec]
    exact exec_completesFrom i s
  | error e =>
    have hill : Illegal s.cfg w := by simp [Illegal, hdec]
    rw [runWord_of_illegal hill]
    exact ⟨_, [], rfl, (List.append_nil _).symm, rfl⟩

theorem irqEdge_completesFrom (s : State) : CompletesFrom s (.next (irqEdge s)) := by
  obtain ⟨-, hedge⟩ | ⟨-, hedge⟩ := irqEdge_spec s
  · exact ⟨_, [.irq .taken], rfl, congrArg State.trace hedge, irqEdge_cfg s⟩
  · exact ⟨_, [.irq .dropped], rfl, congrArg State.trace hedge, irqEdge_cfg s⟩

theorem step_of_idle {s : State} (h : s.env.inputs = []) : step s = .next s := by
  simp [step, h]

/-! ### What a command reports (R281) -/

/-- The command completes, and STATUS and RESULT are then as `P` says. -/
def Reports (P : PortRegs → Prop) (o : Host.Outcome State Fault Refusal) : Prop :=
  ∃ t, o = .next t ∧ P t.port

theorem Reports.port {P : PortRegs → Prop} {o : Host.Outcome State Fault Refusal} {t : State} (h : Reports P o)
    (ho : o = .next t) : P t.port := by
  obtain ⟨u, hu, hport⟩ := h
  obtain rfl : u = t := Host.Outcome.next.inj (hu.symm.trans ho)
  exact hport

theorem reports_setPort {P : PortRegs → Prop} {v : PortRegs} (u : State) (h : P v) : Reports P (.next (u.setPort v)) :=
  ⟨u.setPort v, rfl, h⟩

/-- OK, or the one error code with an empty RESULT. -/
def OkOr (code : Byte) (v : PortRegs) : Prop :=
  v.status = 0x00#8 ∨ (v.status = code ∧ v.result = [])

theorem okOr_driverPort (st : Byte) (res : List Byte) : OkOr 0x02#8 (driverPort st res) := by
  unfold driverPort
  split
  · exact .inl rfl
  · exact .inr ⟨rfl, rfl⟩

theorem exec_reports_of_isDriver {i : Instr} (s : State) (h : isDriver i = true) :
    Reports (OkOr 0x02#8) (exec i s) := by
  cases i with
  | writeByte ch reg val =>
    rw [exec_writeByte]
    exact reports_setPort _ (okOr_driverPort _ _)
  | writeWord ch reg val =>
    rw [exec_writeWord]
    exact reports_setPort _ (okOr_driverPort _ _)
  | readByte ch reg =>
    by_cases hselect : s.env.nextStatus = 0#8
    · rw [exec_readByte_of_ok hselect]
      exact reports_setPort _ (okOr_driverPort _ _)
    · rw [exec_readByte_of_failed hselect]
      exact reports_setPort _ (.inr ⟨rfl, rfl⟩)
  | readWord ch reg =>
    by_cases hselect : s.env.nextStatus = 0#8
    · rw [exec_readWord_of_ok hselect]
      exact reports_setPort _ (okOr_driverPort _ _)
    · rw [exec_readWord_of_failed hselect]
      exact reports_setPort _ (.inr ⟨rfl, rfl⟩)
  | _ => cases h

/-- Only the answer of the HID transport reaches STATUS; CYCLE absorbs its bus failures (R287). -/
theorem exec_reports_of_sends {i : Instr} (s : State) (h : sends i = true) : Reports (OkOr 0x03#8) (exec i s) := by
  cases i with
  | transmit =>
    rw [exec_transmit]
    refine reports_setPort _ ?_
    split
    · exact .inl rfl
    · exact .inr ⟨rfl, rfl⟩
  | cycle =>
    rw [exec_cycle, sendStep_status]
    refine reports_setPort _ ?_
    split
    · exact .inr ⟨rfl, rfl⟩
    · exact .inl rfl
  | _ => cases h

theorem exec_reports_ok {i : Instr} {s : State} (hdriver : isDriver i = false) (hsends : sends i = false)
    (hwf : i.wf s.cfg = true) : Reports (fun v => v.status = 0x00#8) (exec i s) := by
  cases i with
  | writeByte | writeWord | readByte | readWord => cases hdriver
  | transmit | cycle => cases hsends
  | dispatch pressed row col =>
    rw [exec_dispatch_of_wf hwf]
    exact reports_setPort _ rfl
  | rawset col val =>
    rw [exec_rawset_of_wf hwf]
    exact reports_setPort _ rfl
  | init | scan | filter | diff | addKey | removeKey | isAny | serialize => exact ⟨_, rfl, rfl⟩

theorem exec_reports_illegal {i : Instr} {s : State} (hwf : i.wf s.cfg = false) :
    Reports (fun v => v = ⟨0x01#8, []⟩) (exec i s) := by
  rw [outOfRangeOperandsOnlyReport i s hwf]
  exact reports_setPort s rfl

end Sys2Proof.Machine
end

section
/-! PROOFS. Errors and status codes (spec/60_exceptions.md): nothing stops the block, what each command can report, and
the idle block. -/

namespace Sys2Proof.Machine

open Sys2Proof.Claims

/-- Settles O9, by the step with no input. -/
theorem idleStepKeepsState : Obligations.IdleStepKeepsState :=
  fun _ => step_of_idle

/-- Settles O11, by what the environment does next: nothing, a command word or an interrupt edge. Taking the input
leaves the trace and the parameters alone. -/
theorem everyStepCompletes : Obligations.EveryStepCompletes := by
  intro s
  match hin : s.env.inputs with
  | [] => exact ⟨s, [], step_of_idle hin, (List.append_nil _).symm, rfl⟩
  | .command w :: rest =>
    rw [step_of_command hin]
    exact runWord_completesFrom w (withInputs s rest)
  | .edge :: rest =>
    rw [step_of_edge hin]
    exact irqEdge_completesFrom (withInputs s rest)

/-- Settles O15, one clause per class of commands. -/
theorem statusCodesByCommand : Obligations.StatusCodesByCommand := by
  intro i s
  obtain ⟨t, -, hexec, -⟩ := exec_completesFrom i s
  exact ⟨t, hexec, fun hdriver => (exec_reports_of_isDriver s hdriver).port hexec,
    fun hsends => (exec_reports_of_sends s hsends).port hexec,
    fun hdriver hsends hwf => (exec_reports_ok hdriver hsends hwf).port hexec,
    fun hwf => (exec_reports_illegal hwf).port hexec⟩

end Sys2Proof.Machine
end

section
/-! SUPPORT. A CYCLE before INIT (spec/70_reset_and_hazards.md R312, R314): with no chip ready a scan makes no bus call
(R158), and on the snapshots reset leaves a pass is no more than that scan. -/

namespace Sys2Proof.Machine

open Sys2Proof.Claims

/-! ### A scan with no chip ready (R158) -/

/-- Neither chip is ready, as before INIT (R41). -/
def NoneReady (s : State) : Prop :=
  ∀ c, s.dev.ready c = false

theorem noneReady_iff (s : State) : NoneReady s ↔ s.dev.ready0 = false ∧ s.dev.ready1 = false := by
  refine ⟨fun h => ⟨h .chip0, h .chip1⟩, fun ⟨h0, h1⟩ c => ?_⟩
  cases c with
  | chip0 => exact h0
  | chip1 => exact h1

theorem scanBody_of_noneReady {s : State} (h : NoneReady s) : scanBody s = endScan (beginScan s) := by
  have begun (c : Chip) : ¬ (beginScan s).dev.ready c = true := by
    rw [beginScan_ready, h c]
    exact Bool.false_ne_true
  rw [scanBody, scanChip_of_not_ready (begun .chip0), scanChip_of_not_ready (begun .chip1)]

theorem scanBody_acts_of_noneReady {s : State} (h : NoneReady s) : Acts s (scanBody s) [] := by
  rw [scanBody_of_noneReady h]
  exact (beginScan_acts s).trans (endScan_acts _) (by simp)

theorem scanBody_snap_of_noneReady {s : State} (h : NoneReady s) :
    (scanBody s).snap = { s.snap with raw := s.cfg.zeroSnap } := by
  simp [scanBody_of_noneReady h, beginScan]

/-! ### No bus call in a CYCLE with no chip ready -/

/-- `t` follows `s` by events of the block that all satisfy `P`. Unlike `ActsOnly` it lets the interrupt be enabled
meanwhile. -/
def RunsOnly (P : Event → Prop) (s t : State) : Prop :=
  ∃ own, Runs s t own ∧ ∀ e ∈ own, P e

namespace RunsOnly

variable {P : Event → Prop} {s t u : State}

theorem of_runs {own : List Event} (h : Runs s t own) (hown : ∀ e ∈ own, P e) : RunsOnly P s t :=
  ⟨own, h, hown⟩

theorem of_silent (h : Runs s t []) : RunsOnly P s t :=
  of_runs h (by simp)

theorem of_actsOnly {Q : Event → Prop} (h : ActsOnly Q s t) (hQ : ∀ e, Q e → P e) : RunsOnly P s t :=
  let ⟨_, acts, hown⟩ := h
  of_runs (.of_acts acts) fun e he => hQ e (hown e he)

theorem trans (h : RunsOnly P s t) (g : RunsOnly P t u) : RunsOnly P s u := by
  obtain ⟨a, ha, hP⟩ := h
  obtain ⟨b, hb, hQ⟩ := g
  exact of_runs (ha.trans hb) fun e he => (List.mem_append.mp he).elim (hP e) (hQ e)

end RunsOnly

/-- The event is no bus call. -/
def OffBus (e : Event) : Prop :=
  isBus e = false

/-- Interrupt entries are no bus calls either, so none of the new trace entries is one. -/
theorem RunsOnly.trace_offBus {s t : State} (h : RunsOnly OffBus s t) :
    ∃ more, t.trace = s.trace ++ more ∧ ∀ e ∈ more, isBus e = false := by
  obtain ⟨own, runs, hown⟩ := h
  obtain ⟨more, htrace, hmore⟩ := runs.grows.filter (p := isBus) fun _ => rfl
  have hnone : own.filter isBus = [] :=
    List.filter_eq_nil_iff.mpr fun e he => Bool.eq_false_iff.mp (hown e he)
  exact ⟨more, htrace, fun e he => Bool.eq_false_iff.mpr (List.filter_eq_nil_iff.mp (hmore.trans hnone) e he)⟩

theorem DiffEvent.offBus {e : Event} (h : DiffEvent e) : OffBus e := by
  obtain hkey | ⟨id, edge, rfl⟩ := h
  · cases e with
    | key => rfl
    | _ => cases hkey
  · rfl

theorem passBody_offBus {s : State} (h : NoneReady s) : RunsOnly OffBus s (passBody s) := by
  have scan : RunsOnly OffBus s (scanBody s) := .of_silent (.of_acts (scanBody_acts_of_noneReady h))
  have filter : RunsOnly OffBus (scanBody s) (filterBody (scanBody s)) := .of_silent (.of_eq rfl rfl)
  exact (scan.trans filter).trans (.of_actsOnly (diffBody_diffEvents _) fun _ => DiffEvent.offBus)

theorem requeuePass_offBus {s : State} (h : NoneReady s) : RunsOnly OffBus s (requeuePass s) := by
  have wait : RunsOnly OffBus s (requeueStart s) := .of_runs (.of_acts (requeueStart_acts s)) (by simp [OffBus, isBus])
  rw [requeuePass_eq]
  exact wait.trans (passBody_offBus (by simpa [NoneReady] using h))

/-- A pass leaves READY alone (R41). -/
theorem passBody_noneReady {s : State} (h : NoneReady s) : NoneReady (passBody s) := by
  rw [noneReady_iff] at h ⊢
  rwa [passBody_dev]

theorem requeuePass_noneReady {s : State} (h : NoneReady s) : NoneReady (requeuePass s) := by
  rw [requeuePass_eq]
  exact passBody_noneReady (by simpa [NoneReady] using h)

theorem cyclePasses_offBus {s : State} (h : NoneReady s) : RunsOnly OffBus s (cyclePasses s) := by
  have start : RunsOnly OffBus s (setPassCount 0 (setPhase .pass s)) := .of_silent (.of_eq rfl rfl)
  have passes : NoneReady (cyclePasses s) ∧ RunsOnly OffBus s (cyclePasses s) :=
    cyclePasses_induction (P := fun u => NoneReady u ∧ RunsOnly OffBus s u)
      ⟨passBody_noneReady h, start.trans (passBody_offBus h)⟩
      fun _ ⟨hready, hruns⟩ => ⟨requeuePass_noneReady hready, hruns.trans (requeuePass_offBus hready)⟩
  exact passes.2

theorem sentIfDirty_offBus (p : Params) (s : State) : ∀ e ∈ sentIfDirty p s, OffBus e := by
  unfold sentIfDirty
  split <;> simp [OffBus, isBus]

theorem cycleBody_offBus {s : State} (h : NoneReady s) : RunsOnly OffBus s (cycleBody s) := by
  refine (cyclePasses_offBus h).trans (.of_runs (cyclePasses_runs_cycleBody s) fun e he => ?_)
  obtain hsend | hwait := List.mem_append.mp he
  · exact sentIfDirty_offBus _ _ e hsend
  · obtain rfl := List.mem_singleton.mp hwait
    rfl

/-! ### The snapshots as reset leaves them are kept by the filter (R183, R184) -/

theorem shiftHist_replicate (h : Nat) (t : Snapshot) : shiftHist h t (List.replicate h t) = List.replicate h t := by
  rw [shiftHist, ← List.replicate_succ, List.take_replicate, Nat.min_eq_left (Nat.le_succ h)]

theorem snapAt_zeroSnap (p : Params) (c : Nat) : snapAt p.zeroSnap c = 0#8 := by
  rw [snapAt, Params.zeroSnap, List.getD_eq_getElem?_getD, List.getElem?_getD_replicate_default_eq]

/-- A bit that is 0 in RAW agrees on 1 nowhere (R184). -/
theorem agreeOne_of_zero {h c : Nat} {r : SnapRegs} (hraw : snapAt r.raw c = 0#8) : agreeOne h r c = 0#8 := by
  have masked : Masked 0#8 (agreeOne h r c) := by
    rw [agreeOne, hraw]
    exact (masked_zero 0#8).foldl_and _ _
  rwa [Masked, BitVec.not_zero, BitVec.and_allOnes] at masked

theorem nofnStable_of_zeroSnap {p : Params} {r : SnapRegs} (hraw : r.raw = p.zeroSnap)
    (hstable : r.stable = p.zeroSnap) : nofnStable p r = p.zeroSnap := by
  have column (c : Nat) :
      (snapAt r.stable c ||| agreeOne p.histLen r c) &&& ~~~ agreeZero p.rowMask p.histLen r c = 0#8 := by
    rw [agreeOne_of_zero (by rw [hraw, snapAt_zeroSnap]), hstable, snapAt_zeroSnap, BitVec.or_zero, BitVec.zero_and]
  simp only [nofnStable, column]
  simp [Params.zeroSnap]

/-- A filter step keeps a STABLE of zeros when RAW is zeros too, under either policy (R180). -/
theorem nextStable_of_zeroSnap {p : Params} {r : SnapRegs} (hraw : r.raw = p.zeroSnap)
    (hstable : r.stable = p.zeroSnap) : nextStable p r = p.zeroSnap := by
  unfold nextStable
  split
  · rw [settleStable, hraw, hstable, ite_self]
  · exact nofnStable_of_zeroSnap hraw hstable

theorem filterRegs_resetWith (p : Params) : filterRegs p (State.resetWith p).snap = (State.resetWith p).snap := by
  have hstable : nextStable p (State.resetWith p).snap = p.zeroSnap := nextStable_of_zeroSnap rfl rfl
  have hhist := shiftHist_replicate p.histLen p.zeroSnap
  have hpending : pendingFlag p.zeroSnap p.zeroSnap = false := by simp [pendingFlag]
  simp only [filterRegs, hstable]
  simp only [State.resetWith, hhist, hpending]

/-! ### CYCLE on the snapshots of reset -/

/-- The snapshots, the delay line and PENDING as reset leaves them, and no chip ready (R310, R312). -/
structure Unscanned (s : State) : Prop where
  snap : s.snap = (State.resetWith s.cfg).snap
  ready : NoneReady s

namespace Unscanned

variable {s : State}

theorem scanBody_snap (h : Unscanned s) : (scanBody s).snap = s.snap := by
  rw [scanBody_snap_of_noneReady h.ready, h.snap]
  rfl

/-- The filter keeps the snapshots and DIFF finds no difference, so a pass is its scan. -/
theorem passBody_eq (h : Unscanned s) : passBody s = scanBody s := by
  have filtered : filterBody (scanBody s) = scanBody s := by
    rw [filterBody, h.scanBody_snap, scanBody_cfg, h.snap, filterRegs_resetWith, ← h.snap, ← h.scanBody_snap,
      State.setSnap_self]
  have latched : (scanBody s).snap.stablePrev = (scanBody s).snap.stable := by
    rw [h.scanBody_snap, h.snap]
    rfl
  rw [passBody, filtered, diffBody_of_latched latched]

/-- PENDING is 0 after the first pass, so none follows (R262). -/
theorem cyclePasses_eq (h : Unscanned s) : cyclePasses s = scanBody (setPassCount 0 (setPhase .pass s)) := by
  have started : Unscanned (setPassCount 0 (setPhase .pass s)) := ⟨h.snap, h.ready⟩
  have settled : (scanBody (setPassCount 0 (setPhase .pass s))).snap.pending = false := by
    rw [started.scanBody_snap, started.snap]
    rfl
  rw [cyclePasses, started.passBody_eq]
  cases s.cfg.requeuePasses with
  | zero => rfl
  | succ n => rw [requeueLoop, settled]; rfl

theorem cyclePasses_snap (h : Unscanned s) : (cyclePasses s).snap = s.snap := by
  rw [h.cyclePasses_eq]
  exact scanBody_snap (s := setPassCount 0 (setPhase .pass s)) ⟨h.snap, h.ready⟩

theorem cyclePasses_layer (h : Unscanned s) : (cyclePasses s).layer = s.layer := by
  simp [h.cyclePasses_eq, setPassCount, setPhase]

theorem cyclePasses_report (h : Unscanned s) : (cyclePasses s).report = s.report := by
  simp [h.cyclePasses_eq, setPassCount, setPhase]

theorem cyclePasses_passCount (h : Unscanned s) : (cyclePasses s).seq.passCount = 0 := by
  simp [h.cyclePasses_eq, setPassCount]

theorem cyclePasses_acts (h : Unscanned s) : Acts s (cyclePasses s) [] := by
  rw [h.cyclePasses_eq]
  exact (scanBody_acts_of_noneReady (s := setPassCount 0 (setPhase .pass s)) h.ready).congr
    ⟨rfl, rfl, rfl, rfl, rfl, rfl⟩ ⟨rfl, rfl, rfl, rfl, rfl⟩

/-- A clean report stays clean through the passes, so the send step does nothing (R265). -/
theorem sendStep_eq (h : Unscanned s) (hclean : s.report.dirty = false) :
    sendStep (setPhase .send (cyclePasses s)) = (0x00#8, setPhase .send (cyclePasses s)) :=
  sendStep_of_clean ((congrArg Report.dirty h.cyclePasses_report).trans hclean)

theorem cycleSent_eq (h : Unscanned s) (hclean : s.report.dirty = false) :
    cycleSent s = setPhase .send (cyclePasses s) :=
  congrArg Prod.snd (h.sendStep_eq hclean)

theorem cycleBody_report (h : Unscanned s) (hclean : s.report.dirty = false) : (cycleBody s).report = s.report := by
  rw [Machine.cycleBody_report, h.cycleSent_eq hclean]
  exact h.cyclePasses_report

/-- CYCLE's one event of its own is its final wait (R268). -/
theorem cycleBody_runs (h : Unscanned s) (hclean : s.report.dirty = false) :
    Runs s (cycleBody s) [.wait .debounce] := by
  have unsent : sentIfDirty s.cfg (cyclePasses s) = [] := by
    rw [sentIfDirty, h.cyclePasses_report, hclean]
    rfl
  have runs := (Runs.of_acts h.cyclePasses_acts).trans (cyclePasses_runs_cycleBody s)
  rwa [unsent] at runs

end Unscanned

/-! ### WAKE in a CYCLE that no interrupt edge reaches (R264, R266) -/

theorem wakeDecrement_wake_of_masked {s : State} (h : s.dev.irqEn = false) :
    (wakeDecrement s).wake = if s.wake = 0#32 then 0#32 else s.wake - 1#32 := by
  rw [wakeDecrement, State.setWake_wake, (interleave_acts s).wake_masked h]

/-- With the interrupt masked from the send step on, the decrement is all that reaches WAKE. -/
theorem cycleBody_wake_of_masked {s : State} (h : (cycleSent s).dev.irqEn = false) :
    (cycleBody s).wake = if (cycleSent s).wake = 0#32 then 0#32 else (cycleSent s).wake - 1#32 := by
  have decrement := wakeDecrement_wake_of_masked (s := setPhase .finish (cycleSent s)) h
  have wait := (waitFor_acts .debounce (wakeDecrement (setPhase .finish (cycleSent s)))).wake_masked
    (by simpa [wakeDecrement, setPhase] using h)
  rw [cycleBody_eq]
  exact wait.trans decrement

/-- An uninitialized block keeps the interrupt masked after its scans (R157), and WAKE is only counted down. -/
theorem Unscanned.cycleBody_wake {s : State} (h : Unscanned s) (hclean : s.report.dirty = false)
    (hinit : s.dev.initialized = false) (hmask : s.dev.irqEn = false) :
    (cycleBody s).wake = if s.wake = 0#32 then 0#32 else s.wake - 1#32 := by
  have sent : cycleSent s = setPhase .send (cyclePasses s) := h.cycleSent_eq hclean
  have masked : (cycleSent s).dev.irqEn = false := by
    rw [sent]
    exact (congrArg DevRegs.irqEn (cyclePasses_dev s)).trans hinit
  have kept : (cycleSent s).wake = s.wake := by
    rw [sent]
    exact h.cyclePasses_acts.wake_masked hmask
  rw [cycleBody_wake_of_masked masked, kept]

end Sys2Proof.Machine
end

section
/-! PROOFS. Reset and what a CYCLE before INIT does (spec/70_reset_and_hazards.md R310, R312, R314). -/

namespace Sys2Proof.Machine

open Sys2Proof.Claims

theorem emptyReport_resetWith (p : Params) : EmptyReport (State.resetWith p).report :=
  (emptyReport_iff _).mpr ⟨rfl, rfl⟩

/-- Settles O10, register by register; the slots are those of the empty report. -/
theorem resetValues : Obligations.ResetValues := by
  intro p s
  obtain ⟨hmods, hslots⟩ := emptyReport_resetWith p
  exact ⟨rfl, rfl, rfl, rfl, rfl, rfl, rfl, hmods, hslots, rfl, rfl, rfl, rfl, rfl, rfl, rfl, rfl, rfl, rfl, rfl, rfl,
    rfl, rfl, rfl⟩

theorem unscanned_resetWith (p : Params) (e : Env) : Unscanned ((State.resetWith p).setEnv e) :=
  ⟨rfl, (noneReady_iff _).mpr ⟨rfl, rfl⟩⟩

/-- Settles O57. From reset the one pass is a scan of no chip, the report is clean and the interrupt stays masked; from
any state the events of CYCLE without a ready chip are those of DIFF, the SEND and the waits. -/
theorem cycleBeforeInitScansNothing : Obligations.CycleBeforeInitScansNothing := by
  refine ⟨fun p e => ?_, fun s h0 h1 => ?_⟩
  · intro s
    have unscanned : Unscanned s := unscanned_resetWith p e
    have clean : s.report.dirty = false := rfl
    have seqOk : SeqOk s.cfg (cycleBody s).seq := cycleBody_seqOk s
    have count : (cycleBody s).seq.passCount = 0 := by
      rw [cycleBody_seq]
      exact unscanned.cyclePasses_passCount
    have status : (sendStep (setPhase .send (cyclePasses s))).1 = 0x00#8 := by rw [unscanned.sendStep_eq clean]
    exact ⟨_, exec_cycle s, (unscanned.cycleBody_runs clean).grows,
      (cycleBody_snap s).trans unscanned.cyclePasses_snap, unscanned.cycleBody_report clean,
      (cycleBody_dev s).trans (cyclePasses_dev s), unscanned.cycleBody_wake clean rfl rfl,
      (cycleBody_layer s).trans unscanned.cyclePasses_layer, seqOk.scan.scan_idle, seqOk.pipe_idle,
      count, by rw [State.setPort_port, status]⟩
  · obtain ⟨more, htrace, hbus⟩ := (cycleBody_offBus ((noneReady_iff s).mpr ⟨h0, h1⟩)).trace_offBus
    exact ⟨_, more, exec_cycle s, htrace, hbus⟩

end Sys2Proof.Machine
end
